-- ==== Sys2Proof/Word.lean ====
section
/-!
DEFINITION. The block's word and byte types (R10 00_scope.md: every register value is a 32-bit pattern;
R9: byte strings are sequences of bytes).
-/

namespace Sys2Proof

/-- A register value or a bus word: 32 bits, bit 0 least significant (R8, R10 00_scope.md). -/
abbrev Word := BitVec 32

/-- One byte of a byte string (R9 00_scope.md). -/
abbrev Byte := BitVec 8

end Sys2Proof
end

