-- ==== Sys2Proof/Config.lean ====
section
/-!
DEFINITION. What an implementation fixes and the free values. None of these constants has a body: no proof can
see a value of one, so a claim that holds at all holds whatever they are.
-/

namespace Sys2Proof.Config

/-- The `n`-th free word. R274 (70_reset_and_hazards.md): a read of a register in the running command's write
set "returns any 32-bit value: a model draws it freely". Log 3. -/
opaque freeWord : Nat → Word

/-- The `n`-th free lag: how many host transactions the command accepted at draw `n` outlasts. R276
(70_reset_and_hazards.md): completion "happens after finitely many host steps", the number left open. Log 2. -/
opaque freeLag : Nat → Nat

/-- BASE_ADDR in units of 256 bytes (D3 92_eei_decisions.md: "any 256-byte-aligned address"). Log 5. -/
opaque baseIndex : Nat

/-- BASE_ADDR, the platform address of offset 0x000, 256-byte aligned (R21 10_state.md; D3). -/
def baseAddr : Nat := 256 * baseIndex

end Sys2Proof.Config
end

