-- ==== Sys2Proof/Syntax.lean ====
section
/-!
DEFINITION. The commands of the block: one constructor per row of spec/opcode_table.json (R83 30_encoding.md).
-/

namespace Sys2Proof

/-- A command. R82 (30_encoding.md): "Commands have no immediate fields and no register fields", so no
constructor has an argument; every operand is a fixed, named register (R43 10_state.md). -/
inductive Instr where
  /-- NOP (R100). -/
  | nop
  /-- COMMIT_KEYS (R101). -/
  | commitKeys
  /-- ZEROIZE (R102). -/
  | zeroize
  /-- TIME_ENC (R121). -/
  | timeEnc
  /-- TIME_DEC (R122). -/
  | timeDec
  /-- HMAC_PAD (R154). -/
  | hmacPad
  /-- SIG_GEN (R155). -/
  | sigGen
  /-- SIG_CHK (R156). -/
  | sigChk
  /-- XOR_MASK (R181). -/
  | xorMask
  /-- XOR_UNMASK (R182). -/
  | xorUnmask
  /-- B64_ENC (R199). -/
  | b64Enc
  /-- B64_DEC (R200). -/
  | b64Dec
  /-- ENCODE (R222). -/
  | encodeToken
  /-- DECODE (R223). -/
  | decodeToken
  deriving DecidableEq, Repr

end Sys2Proof
end

