-- ==== Sys2Proof/Machine/State.lean ====
section
/-!
DEFINITION. The state of the block (the record of R45 10_state.md) with the model's own fields for the outside
world, as plain data; the reasons a step can stop; the state after reset (R270 70_reset_and_hazards.md).
-/

namespace Sys2Proof.Machine

/-- The engine (R41 10_state.md): Idle, or Busy with the accepted CMD word. The decoded command `op` of R41 is
`decodeWord word`, computed where the command is run, so that the two cannot differ. -/
inductive Engine where
  | idle
  | busy (word : Word)
  deriving DecidableEq, Repr

/-- A bus transaction of the host at a platform byte address (R61, R62 20_memory.md). The admitted ones are 4
bytes wide; a transaction of another width is one the host can issue and gets a bus error. -/
inductive BusTxn where
  /-- `MemRead(addr - BASE_ADDR, width)`. -/
  | read (addr : Nat) (width : Nat)
  /-- `MemWrite(addr - BASE_ADDR, width, value)`. -/
  | write (addr : Nat) (width : Nat) (value : Word)
  deriving DecidableEq, Repr

/-- What the bus answers to a transaction (R61, R62 20_memory.md). -/
inductive BusResponse where
  /-- No transaction has been answered. -/
  | none
  /-- A write completed. -/
  | writeDone
  /-- A read completed with this word. -/
  | readData (value : Word)
  /-- A bus error response; `data` is what a read returns with it. -/
  | busError (data : Word)
  deriving DecidableEq, Repr

/-- One thing the outside world does to the block. -/
inductive Input where
  /-- The host issues a transaction (R20 10_state.md). -/
  | bus (t : BusTxn)
  /-- The script statement WAIT: read STATUS until BUSY reads 0 (R86 30_encoding.md). -/
  | wait
  /-- Reset (R271 70_reset_and_hazards.md); `lost` are the (address, value) writes that arrive during it. -/
  | reset (lost : List (Nat × Word))
  deriving DecidableEq, Repr

/-- Why a step stops. R244 (60_exceptions.md): no failure of a command stops the block. -/
inductive Fault where
  /-- Raised by a bus transaction whose address is outside the block's 256-byte window: "Accesses outside the
  window do not reach the block" (D3 92_eei_decisions.md), and the spec does not say what the platform answers.
  Safe: the model stops where the platform goes on. Log 6. -/
  | outsideWindow (addr : Nat)
  deriving DecidableEq, Repr

/-- Why an instruction has no meaning. -/
inductive Refusal where
  /-- An instruction of the opcode table that has no meaning yet. No arm of `exec` raises it: every command has
  its meaning. Safe. -/
  | notModelled (mnemonic : String)
  deriving DecidableEq, Repr

/-- The whole state. The fields down to `token` are R45's record (10_state.md); the last four are the model's
own. STATUS.BUSY is a view of `eng` (R41). -/
structure State where
  /-- CTRL.IRQ_EN (R23). -/
  irqEn : Bool
  /-- The engine (R41). -/
  eng : Engine
  /-- STATUS.DONE (R25). -/
  done : Bool
  /-- STATUS.KEYS_VALID (R25). -/
  keysValid : Bool
  /-- STATUS.AUTH_OK (R25). -/
  authOk : Bool
  /-- STATUS.OVR (R25, R247). -/
  ovr : Bool
  /-- STATUS.RESULT (R25, R240). -/
  result : BitVec 4
  /-- ERR_INFO (R26, R241). -/
  errInfo : Word
  /-- EKEY_LEN (R27). -/
  ekeyLen : Word
  /-- IKEY_LEN (R27). -/
  ikeyLen : Word
  /-- EKEY0..EKEY7, the encryption key EK (R28). -/
  ek : Vector Word 8
  /-- IKEY0..IKEY7, the integrity key IK (R28). -/
  ik : Vector Word 8
  /-- TIME_SEC (R29). -/
  timeSec : Word
  /-- TIME_USEC (R29). -/
  timeUsec : Word
  /-- TS_SEC (R30). -/
  tsSec : Word
  /-- TS_USEC (R30). -/
  tsUsec : Word
  /-- PRICE_HI (R31). -/
  priceHi : Word
  /-- PRICE_LO (R31). -/
  priceLo : Word
  /-- ENC_PRICE_HI (R32). -/
  encPriceHi : Word
  /-- ENC_PRICE_LO (R32). -/
  encPriceLo : Word
  /-- IV0..IV3 (R33). -/
  iv : Vector Word 4
  /-- SIG (R34). -/
  sig : Word
  /-- SIG_CALC (R35). -/
  sigCalc : Word
  /-- PAD_HI (R36). -/
  padHi : Word
  /-- PAD_LO (R36). -/
  padLo : Word
  /-- DIGEST0..DIGEST4 (R37). -/
  digest : Vector Word 5
  /-- TOKEN_LEN (R38). -/
  tokenLen : Word
  /-- TOKEN0..TOKEN9, the buffer T (R39). -/
  token : Vector Word 10
  /-- The model's own: how many more host transactions the running command outlasts (R276; log 2). -/
  lag : Nat
  /-- The model's own: how many free values have been drawn (R274; log 3). -/
  draws : Nat
  /-- The model's own: what the outside world does next, oldest first (R67; log 1). -/
  pending : List Input
  /-- The model's own: the bus's answer to the last transaction (R61, R62; log 4). -/
  resp : BusResponse
  deriving DecidableEq, Repr

/-- The block right after reset: R270 (70_reset_and_hazards.md), "No value is unspecified". The model's own
fields start empty (DESIGN CHOICE, logs 1 to 4). -/
def State.reset : State where
  irqEn := false
  eng := .idle
  done := false
  keysValid := false
  authOk := false
  ovr := false
  result := 0#4
  errInfo := 0#32
  ekeyLen := 0#32
  ikeyLen := 0#32
  ek := Vector.replicate 8 0#32
  ik := Vector.replicate 8 0#32
  timeSec := 0#32
  timeUsec := 0#32
  tsSec := 0#32
  tsUsec := 0#32
  priceHi := 0#32
  priceLo := 0#32
  encPriceHi := 0#32
  encPriceLo := 0#32
  iv := Vector.replicate 4 0#32
  sig := 0#32
  sigCalc := 0#32
  padHi := 0#32
  padLo := 0#32
  digest := Vector.replicate 5 0#32
  tokenLen := 0#32
  token := Vector.replicate 10 0#32
  lag := 0
  draws := 0
  pending := []
  resp := .none

end Sys2Proof.Machine
end

