-- ==== Sys2Proof/Machine/Operands.lean ====
section
/-!
DEFINITION. Byte order and the byte views of registers (R10 00_scope.md, R46 10_state.md, R66 20_memory.md).
Commands have no operand fields (R82 30_encoding.md): these views ARE the operand forms.
-/

namespace Sys2Proof.Machine

/-- `be_bytes_4` (R10): the 4-byte big-endian string of a word, byte 0 holding bits 31:24. -/
def beBytes4 (w : Word) : List Byte :=
  [w.extractLsb' 24 8, w.extractLsb' 16 8, w.extractLsb' 8 8, w.extractLsb' 0 8]

/-- `be_bytes_8` (R10). -/
def beBytes8 (v : BitVec 64) : List Byte :=
  beBytes4 (v.extractLsb' 32 32) ++ beBytes4 (v.extractLsb' 0 32)

/-- The big-endian bytes of consecutive words: byte `i` is in word `i div 4` (R66). -/
def beBytes (ws : List Word) : List Byte := ws.flatMap beBytes4

/-- `be_val` of four bytes (R10), R46's `word(s)`. -/
def beWord (b0 b1 b2 b3 : Byte) : Word := b0 ++ b1 ++ b2 ++ b3

/-- `be_val(s[4k..4k+4))` (R46). Every use is on a string that has those bytes. -/
def wordAt (s : List Byte) (k : Nat) : Word :=
  beWord (s.getD (4 * k) 0#8) (s.getD (4 * k + 1) 0#8) (s.getD (4 * k + 2) 0#8) (s.getD (4 * k + 3) 0#8)

/-- Writing a 16-byte view: the four words of `s` (R46). -/
def words4 (s : List Byte) : Vector Word 4 := #v[wordAt s 0, wordAt s 1, wordAt s 2, wordAt s 3]

/-- Writing a 20-byte view: the five words of `s` (R46). -/
def words5 (s : List Byte) : Vector Word 5 := #v[wordAt s 0, wordAt s 1, wordAt s 2, wordAt s 3, wordAt s 4]

/-- Writing a 40-byte view: the ten words of `s` (R46). -/
def words10 (s : List Byte) : Vector Word 10 :=
  #v[wordAt s 0, wordAt s 1, wordAt s 2, wordAt s 3, wordAt s 4,
     wordAt s 5, wordAt s 6, wordAt s 7, wordAt s 8, wordAt s 9]

/-- `s[a..b)` (R9 00_scope.md). -/
def slice (s : List Byte) (a b : Nat) : List Byte := (s.drop a).take (b - a)

/-- The bytewise XOR of two strings (R181, R182 43_xor_cipher.md; R150 42_hmac_sha1.md). -/
def xorBytes (s t : List Byte) : List Byte := List.zipWith (fun a b => a ^^^ b) s t

/-- `EK`: the 32 bytes of EKEY0..7 (R46). -/
def State.ekBytes (s : State) : List Byte := beBytes s.ek.toList

/-- `IK`: the 32 bytes of IKEY0..7 (R46). -/
def State.ikBytes (s : State) : List Byte := beBytes s.ik.toList

/-- `IVb` (R46), 16 bytes. -/
def State.ivBytes (s : State) : List Byte := beBytes s.iv.toList

/-- `PRICEb` (R46), 8 bytes. -/
def State.priceBytes (s : State) : List Byte := beBytes4 s.priceHi ++ beBytes4 s.priceLo

/-- `ENCb` (R46), 8 bytes. -/
def State.encBytes (s : State) : List Byte := beBytes4 s.encPriceHi ++ beBytes4 s.encPriceLo

/-- `PADb` (R46), 8 bytes. -/
def State.padBytes (s : State) : List Byte := beBytes4 s.padHi ++ beBytes4 s.padLo

/-- `SIGb` (R46), 4 bytes. -/
def State.sigBytes (s : State) : List Byte := beBytes4 s.sig

/-- `SIGCb` (R46), 4 bytes. -/
def State.sigCalcBytes (s : State) : List Byte := beBytes4 s.sigCalc

/-- `DIGb` (R46), 20 bytes. -/
def State.digestBytes (s : State) : List Byte := beBytes s.digest.toList

/-- `T` (R39, R46), 40 bytes. -/
def State.tokenBytes (s : State) : List Byte := beBytes s.token.toList

/-- `x[IV] <- v` for a 16-byte `v` (R46). -/
def State.setIv (v : List Byte) (s : State) : State := { s with iv := words4 v }

/-- `x[PRICE] <- v` for an 8-byte `v`, PRICE_HI then PRICE_LO (R46). -/
def State.setPrice (v : List Byte) (s : State) : State := { s with priceHi := wordAt v 0, priceLo := wordAt v 1 }

/-- `x[ENC_PRICE] <- v` for an 8-byte `v` (R46). -/
def State.setEnc (v : List Byte) (s : State) : State := { s with encPriceHi := wordAt v 0, encPriceLo := wordAt v 1 }

/-- `x[PAD] <- v` for an 8-byte `v` (R46). -/
def State.setPad (v : List Byte) (s : State) : State := { s with padHi := wordAt v 0, padLo := wordAt v 1 }

/-- `x[DIGEST] <- v` for a 20-byte `v`, DIGEST0 to DIGEST4 (R46). -/
def State.setDigest (v : List Byte) (s : State) : State := { s with digest := words5 v }

/-- `x[SIG] <- word(v)` for a 4-byte `v` (R46). -/
def State.setSig (v : List Byte) (s : State) : State := { s with sig := wordAt v 0 }

/-- `x[SIG_CALC] <- word(v)` for a 4-byte `v` (R46). -/
def State.setSigCalc (v : List Byte) (s : State) : State := { s with sigCalc := wordAt v 0 }

/-- `x[TOKEN] <- c ∥ 0x00^2; x[TOKEN_LEN] <- 38` for 38 characters `c` (R199 44_base64.md, R222 45_token.md). -/
def State.setToken (c : List Byte) (s : State) : State :=
  { s with token := words10 (c ++ [0x00#8, 0x00#8]), tokenLen := 38#32 }

/-- The `x[TS_SEC]`, `x[TS_USEC]` writes from an IV: its first and second words, bytes 8 to 15 ignored
(R122, R125 41_timestamp.md; R223 45_token.md step 9). -/
def State.setTs (v : List Byte) (s : State) : State := { s with tsSec := wordAt v 0, tsUsec := wordAt v 1 }

end Sys2Proof.Machine
end

