-- ==== Sys2Proof/Machine/Flags.lean ====
section
/-!
DEFINITION. The STATUS word (R25 10_state.md), the result codes and the ERR_INFO values (R240, R241
60_exceptions.md), the interrupt output (R246).
-/

namespace Sys2Proof.Machine

/-- The results a completion can have (R240 60_exceptions.md). -/
inductive ResultCode where
  | ok
  | keyLength
  | format
  | range
  | authFail
  | noKeys
  | illegalCmd
  deriving DecidableEq, Repr

/-- The number of a result code in STATUS.RESULT (R240); 7 to 15 are never produced. -/
def ResultCode.bits : ResultCode → BitVec 4
  | .ok => 0#4
  | .keyLength => 1#4
  | .format => 2#4
  | .range => 3#4
  | .authFail => 4#4
  | .noKeys => 5#4
  | .illegalCmd => 6#4

/-- STATUS.BUSY: 1 exactly when the engine is Busy (R41 10_state.md). -/
def State.busy (s : State) : Bool :=
  match s.eng with
  | .idle => false
  | .busy _ => true

/-- STATUS as read (R25): bits 31:12 and 7:5 read 0. -/
def State.statusWord (s : State) : Word :=
  0#20 ++ s.result ++ 0#3 ++ BitVec.ofBool s.ovr ++ BitVec.ofBool s.authOk ++ BitVec.ofBool s.keysValid ++
    BitVec.ofBool s.done ++ BitVec.ofBool s.busy

/-- CTRL as read (R23): IRQ_EN in bit 0, bits 31:1 read 0. -/
def State.ctrlWord (s : State) : Word := 0#31 ++ BitVec.ofBool s.irqEn

/-- The interrupt output: the level `CTRL.IRQ_EN AND STATUS.DONE` (R246). -/
def State.irq (s : State) : Bool := s.irqEn && s.done

/-- The host clears DONE: the acknowledgement (R245 60_exceptions.md), the analogue of a return from exception.
Nothing is restored, and RESULT and ERR_INFO keep their values. -/
def State.acknowledge (s : State) : State := { s with done := false }

/-- The host clears OVR (R247). -/
def State.clearOvr (s : State) : State := { s with ovr := false }

/-- A host write to STATUS (R25): bit 1 clears DONE, bit 4 clears OVR, writing 0 leaves them, all other bits are
ignored. -/
def State.writeStatus (v : Word) (s : State) : State :=
  let s1 := if v.getLsbD 1 then s.acknowledge else s
  if v.getLsbD 4 then s1.clearOvr else s1

/-- ERR_INFO of KEY_LENGTH: `zext_32(i_bad ∥ e_bad)` (R101 40_control.md). -/
def keyLengthInfo (eBad iBad : Bool) : Word := 0#30 ++ BitVec.ofBool iBad ++ BitVec.ofBool eBad

/-- ERR_INFO of FORMAT cause 1, the token length (R196 44_base64.md). -/
def formatLengthInfo : Word := 0x00000001#32

/-- ERR_INFO of FORMAT cause 3, a byte outside the alphabet at index `j`: `0x00000003 OR (j << 8)` (R197). -/
def formatCharInfo (j : Nat) : Word := 0x00000003#32 ||| (BitVec.ofNat 32 j <<< 8)

/-- ERR_INFO of RANGE: TIME_USEC (R241). -/
def rangeInfo : Word := 0x00000001#32

end Sys2Proof.Machine
end

