-- ==== Sys2Proof/WellFormed.lean ====
section
/-!
DEFINITION. Well-formedness. A command has no operand field (R82 30_encoding.md), so the syntax alone admits no
ill-formed command; what can be ill-formed is a command WORD. `legalWord` is written from R84's list of reserved
and illegal encodings, independently of the opcode map the decoder is written from (R83).
-/

namespace Sys2Proof

/-- The opcodes R84 (30_encoding.md) lists as illegal: "0x03 to 0x0F, 0x12 to 0x1F, 0x23 to 0x2F, 0x32 to 0x3F,
0x42 to 0x4F, 0x52 to 0xFF". -/
def reservedOpcode (op : Nat) : Bool :=
  (0x03 ≤ op && op ≤ 0x0F) || (0x12 ≤ op && op ≤ 0x1F) || (0x23 ≤ op && op ≤ 0x2F) ||
  (0x32 ≤ op && op ≤ 0x3F) || (0x42 ≤ op && op ≤ 0x4F) || (0x52 ≤ op && op ≤ 0xFF)

/-- MBZ, bits 31:8, is zero (R80 30_encoding.md). -/
def mbzClear (w : Word) : Bool := w.toNat < 0x100

/-- A legal command word by R84: MBZ is zero and the opcode is not reserved. -/
def legalWord (w : Word) : Bool := mbzClear w && !reservedOpcode (w.toNat % 0x100)

/-- Well-formedness of a command: nothing to check, since no command has an operand (R82). -/
def Instr.wellFormed : Instr → Bool
  | .nop | .commitKeys | .zeroize | .timeEnc | .timeDec | .hmacPad | .sigGen | .sigChk
  | .xorMask | .xorUnmask | .b64Enc | .b64Dec | .encodeToken | .decodeToken => true

end Sys2Proof
end

