-- ==== Sys2Proof/Decode.lean ====
section
/-!
DEFINITION. Decoding a command word, total on all 32-bit words (R81 30_encoding.md), and the encoder after it.
-/

namespace Sys2Proof

/-- Why a command word is Illegal (R84 30_encoding.md); either way it completes with ILLEGAL_CMD (R255). -/
inductive Illegal where
  /-- MBZ, bits 31:8, is not zero. -/
  | mbzNonzero
  /-- MBZ is zero and OPCODE is not in the map of R83. -/
  | opcodeNotMapped
  deriving DecidableEq, Repr

/-- OPCODE, bits 7:0 (R80). -/
def opcodeField (w : Word) : BitVec 8 := w.extractLsb' 0 8

/-- MBZ, bits 31:8 (R80). -/
def mbzField (w : Word) : BitVec 24 := w.extractLsb' 8 24

/-- The opcode map, row by row as R83 (30_encoding.md) prints it. -/
def opcodeMap : List (BitVec 8 × Instr) :=
  [(0x00#8, .nop), (0x01#8, .commitKeys), (0x02#8, .zeroize),
   (0x10#8, .timeEnc), (0x11#8, .timeDec),
   (0x20#8, .hmacPad), (0x21#8, .sigGen), (0x22#8, .sigChk),
   (0x30#8, .xorMask), (0x31#8, .xorUnmask),
   (0x40#8, .b64Enc), (0x41#8, .b64Dec),
   (0x50#8, .encodeToken), (0x51#8, .decodeToken)]

/-- The command of an opcode, if R83 maps it. -/
def instrOfOpcode (op : BitVec 8) : Option Instr := (opcodeMap.find? (fun row => row.1 == op)).map (·.2)

/-- R81: the command whose opcode equals `v[7:0]` when `v[31:8] = 0`, and Illegal otherwise. -/
def decodeWord (v : Word) : Except Illegal Instr :=
  if mbzField v = 0#24 then
    match instrOfOpcode (opcodeField v) with
    | some i => .ok i
    | none => .error .opcodeNotMapped
  else .error .mbzNonzero

/-- The decoder on an instruction numbered as spec/opcode_table.json numbers it: a command is exactly one 32-bit
word (R80), whose bits above `nbits` are zero; a wider number is no command word. -/
def decodeTableWord (nbits w : Nat) : Option Instr :=
  if w % 2 ^ nbits < 2 ^ 32 then
    match decodeWord (BitVec.ofNat 32 (w % 2 ^ nbits)) with
    | .ok i => some i
    | .error _ => none
  else none

/-- The OPCODE of a command (R83's first column). -/
def opcodeOf : Instr → BitVec 8
  | .nop => 0x00#8
  | .commitKeys => 0x01#8
  | .zeroize => 0x02#8
  | .timeEnc => 0x10#8
  | .timeDec => 0x11#8
  | .hmacPad => 0x20#8
  | .sigGen => 0x21#8
  | .sigChk => 0x22#8
  | .xorMask => 0x30#8
  | .xorUnmask => 0x31#8
  | .b64Enc => 0x40#8
  | .b64Dec => 0x41#8
  | .encodeToken => 0x50#8
  | .decodeToken => 0x51#8

/-- The command word of a command: MBZ zero, then OPCODE (R80). -/
def encode (i : Instr) : Word := 0#24 ++ opcodeOf i

/-- The commands R83 marks "keys": they fail with NO_KEYS when STATUS.KEYS_VALID is 0 (R103 40_control.md). -/
def needsKeys : Instr → Bool
  | .hmacPad | .sigGen | .sigChk | .encodeToken | .decodeToken => true
  | .nop | .commitKeys | .zeroize | .timeEnc | .timeDec | .xorMask | .xorUnmask | .b64Enc | .b64Dec => false

end Sys2Proof
end

