-- ==== Sys2Proof/Machine/Registers.lean ====
section
/-!
DEFINITION. The register map (R21 10_state.md) and the write sets (R274 70_reset_and_hazards.md).
-/

namespace Sys2Proof.Machine

/-- The registers of R21, each under its own name. -/
inductive Reg where
  | id | ctrl | cmd | status | errInfo | ekeyLen | ikeyLen
  | ekey (k : Fin 8)
  | ikey (k : Fin 8)
  | timeSec | timeUsec | tsSec | tsUsec
  | priceHi | priceLo | encPriceHi | encPriceLo
  | iv (k : Fin 4)
  | sig | sigCalc | padHi | padLo
  | digest (k : Fin 5)
  | tokenLen
  | token (k : Fin 10)
  deriving DecidableEq, Repr

/-- The byte offset of a register from BASE_ADDR (R21). -/
def Reg.offset : Reg → Nat
  | .id => 0x000
  | .ctrl => 0x004
  | .cmd => 0x008
  | .status => 0x00C
  | .errInfo => 0x010
  | .ekeyLen => 0x014
  | .ikeyLen => 0x018
  | .ekey k => 0x020 + 4 * k.val
  | .ikey k => 0x040 + 4 * k.val
  | .timeSec => 0x060
  | .timeUsec => 0x064
  | .tsSec => 0x068
  | .tsUsec => 0x06C
  | .priceHi => 0x070
  | .priceLo => 0x074
  | .encPriceHi => 0x078
  | .encPriceLo => 0x07C
  | .iv k => 0x080 + 4 * k.val
  | .sig => 0x090
  | .sigCalc => 0x094
  | .padHi => 0x098
  | .padLo => 0x09C
  | .digest k => 0x0A0 + 4 * k.val
  | .tokenLen => 0x0C0
  | .token k => 0x0C4 + 4 * k.val

/-- The 64 word slots of the window in the order of R21's map, `none` for the reserved offsets of R40: 0x01C,
0x0B4, 0x0B8, 0x0BC and 0x0EC to 0x0FC. -/
def registerSlots : List (Option Reg) :=
  List.flatten [
    [some .id, some .ctrl, some .cmd, some .status, some .errInfo, some .ekeyLen, some .ikeyLen, none],
    [some (.ekey 0), some (.ekey 1), some (.ekey 2), some (.ekey 3),
     some (.ekey 4), some (.ekey 5), some (.ekey 6), some (.ekey 7)],
    [some (.ikey 0), some (.ikey 1), some (.ikey 2), some (.ikey 3),
     some (.ikey 4), some (.ikey 5), some (.ikey 6), some (.ikey 7)],
    [some .timeSec, some .timeUsec, some .tsSec, some .tsUsec],
    [some .priceHi, some .priceLo, some .encPriceHi, some .encPriceLo],
    [some (.iv 0), some (.iv 1), some (.iv 2), some (.iv 3)],
    [some .sig, some .sigCalc, some .padHi, some .padLo],
    [some (.digest 0), some (.digest 1), some (.digest 2), some (.digest 3), some (.digest 4)],
    [none, none, none],
    [some .tokenLen, some (.token 0), some (.token 1), some (.token 2), some (.token 3), some (.token 4),
     some (.token 5), some (.token 6), some (.token 7), some (.token 8), some (.token 9)],
    [none, none, none, none, none]]

/-- The register at an aligned offset of the window, `none` at a reserved one (R21, R40). -/
def regAt (off : Nat) : Option Reg := (registerSlots[off / 4]?).join

/-- A command's write set besides STATUS and ERR_INFO, row by row as the table of R274 gives it. -/
def inWriteSet : Instr → Reg → Bool
  | .nop, _ => false
  | .commitKeys, _ => false
  | .zeroize, r =>
    match r with
    | .ekey _ | .ikey _ | .ekeyLen | .ikeyLen | .padHi | .padLo | .digest _ | .sigCalc => true
    | _ => false
  | .timeEnc, r => match r with | .iv _ => true | _ => false
  | .timeDec, r => match r with | .tsSec | .tsUsec => true | _ => false
  | .hmacPad, r => match r with | .digest _ | .padHi | .padLo => true | _ => false
  | .sigGen, r => match r with | .digest _ | .sigCalc | .sig => true | _ => false
  | .sigChk, r => match r with | .digest _ | .sigCalc => true | _ => false
  | .xorMask, r => match r with | .encPriceHi | .encPriceLo => true | _ => false
  | .xorUnmask, r => match r with | .priceHi | .priceLo => true | _ => false
  | .b64Enc, r => match r with | .token _ | .tokenLen => true | _ => false
  | .b64Dec, r => match r with | .iv _ | .encPriceHi | .encPriceLo | .sig => true | _ => false
  | .encodeToken, r =>
    match r with
    | .iv _ | .padHi | .padLo | .encPriceHi | .encPriceLo | .digest _ | .sigCalc | .sig | .token _ | .tokenLen => true
    | _ => false
  | .decodeToken, r =>
    match r with
    | .iv _ | .encPriceHi | .encPriceLo | .sig | .padHi | .padLo | .digest _ | .sigCalc | .priceHi | .priceLo
    | .tsSec | .tsUsec => true
    | _ => false

/-- The write set of a CMD word: none for an illegal word (R274's last row). -/
def wordWriteSet (w : Word) (r : Reg) : Bool :=
  match decodeWord w with
  | .ok i => inWriteSet i r
  | .error _ => false

/-- Key registers "are write-only and read 0 always, including during ZEROIZE" (R274). -/
def Reg.isKey : Reg → Bool
  | .ekey _ | .ikey _ => true
  | _ => false

end Sys2Proof.Machine
end

