-- ==== Sys2Proof/Machine/Ops.lean ====
section
/-!
DEFINITION. The shared operations: accepting a command (R80 30_encoding.md), completing it (R243 60_exceptions.md,
the block's analogue of taking an exception), the key gate (R103 40_control.md), reading and writing a register
(R22 to R44 10_state.md), and the host's transactions on the window (R61, R62 20_memory.md; R273, R274
70_reset_and_hazards.md).
-/

namespace Sys2Proof.Machine

/-- Acceptance of a CMD word by an idle engine: `eng <- Busy`, BUSY <- 1, DONE <- 0 (R80), whatever the word
(R255 for an illegal one). How many host transactions the command will outlast is drawn freely (R276; log 2). -/
def State.accept (w : Word) (s : State) : State :=
  { s with eng := .busy w, done := false, lag := Config.freeLag s.draws, draws := s.draws + 1 }

/-- Completion (R243): STATUS.RESULT and ERR_INFO are written, BUSY <- 0 and `eng <- Idle`, DONE <- 1. Nothing
else is saved and control goes nowhere. -/
def State.complete (code : ResultCode) (info : Word) (s : State) : State :=
  { s with result := code.bits, errInfo := info, done := true, eng := .idle }

/-- `finish(code, info)` (R11 00_scope.md): the completion as the outcome of a command on the state `s` that
holds the writes its rule lists. -/
def finish (code : ResultCode) (info : Word) (s : State) : Host.Outcome State Fault Refusal :=
  .next (s.complete code info)

/-- `raise E(info)` (R11): a failing completion, with no write other than those the rule has put into `s`. -/
def raise (code : ResultCode) (info : Word) (s : State) : Host.Outcome State Fault Refusal :=
  finish code info s

/-- The key gate (R103): with KEYS_VALID = 0 the command raises NO_KEYS(0), SIG_CHK and DECODE (`clearsAuth`)
also clearing AUTH_OK; else it goes on with `body`. -/
def keyGate (clearsAuth : Bool) (s : State) (body : State → Host.Outcome State Fault Refusal) :
    Host.Outcome State Fault Refusal :=
  if s.keysValid then body s
  else raise .noKeys 0#32 (if clearsAuth then { s with authOk := false } else s)

/-- The completion of an illegal CMD word: `finish(ILLEGAL_CMD, v)` and no other write (R255). -/
def illegalCommand (w : Word) (s : State) : Host.Outcome State Fault Refusal :=
  raise .illegalCmd w s

/-- The value a register shows by its own rule (R22 to R39). CMD and the key registers are write-only and read 0
(R24, R28). -/
def readReg (r : Reg) (s : State) : Word :=
  match r with
  | .id => 0x52544231#32
  | .ctrl => s.ctrlWord
  | .cmd => 0#32
  | .status => s.statusWord
  | .errInfo => s.errInfo
  | .ekeyLen => s.ekeyLen
  | .ikeyLen => s.ikeyLen
  | .ekey _ => 0#32
  | .ikey _ => 0#32
  | .timeSec => s.timeSec
  | .timeUsec => s.timeUsec
  | .tsSec => s.tsSec
  | .tsUsec => s.tsUsec
  | .priceHi => s.priceHi
  | .priceLo => s.priceLo
  | .encPriceHi => s.encPriceHi
  | .encPriceLo => s.encPriceLo
  | .iv k => s.iv[k]
  | .sig => s.sig
  | .sigCalc => s.sigCalc
  | .padHi => s.padHi
  | .padLo => s.padLo
  | .digest k => s.digest[k]
  | .tokenLen => s.tokenLen
  | .token k => s.token[k]

/-- The effect of a host write on a register while the engine is idle, or on CTRL and STATUS at any time
(R22 to R39). A key or key-length write also clears KEYS_VALID (R44); read-only registers ignore it (D43). -/
def writeReg (r : Reg) (v : Word) (s : State) : State :=
  match r with
  | .id => s
  | .ctrl => { s with irqEn := v.getLsbD 0 }
  | .cmd => s.accept v
  | .status => s.writeStatus v
  | .errInfo => s
  | .ekeyLen => { s with ekeyLen := v, keysValid := false }
  | .ikeyLen => { s with ikeyLen := v, keysValid := false }
  | .ekey k => { s with ek := s.ek.set k.val v k.isLt, keysValid := false }
  | .ikey k => { s with ik := s.ik.set k.val v k.isLt, keysValid := false }
  | .timeSec => { s with timeSec := v }
  | .timeUsec => { s with timeUsec := v }
  | .tsSec => s
  | .tsUsec => s
  | .priceHi => { s with priceHi := v }
  | .priceLo => { s with priceLo := v }
  | .encPriceHi => { s with encPriceHi := v }
  | .encPriceLo => { s with encPriceLo := v }
  | .iv k => { s with iv := s.iv.set k.val v k.isLt }
  | .sig => { s with sig := v }
  | .sigCalc => s
  | .padHi => s
  | .padLo => s
  | .digest _ => s
  | .tokenLen => { s with tokenLen := v }
  | .token k => { s with token := s.token.set k.val v k.isLt }

/-- Whether reading `r` now gives a free value: the engine is busy and `r` is in the running command's write set
(R274). STATUS and ERR_INFO are in no write set here; key registers read 0 always. -/
def readIsFree (r : Reg) (s : State) : Bool :=
  match s.eng with
  | .idle => false
  | .busy w => wordWriteSet w r && !r.isKey

/-- An admitted read at an aligned offset of the window (R61): reserved offsets read 0 (R40). Nothing of the
block changes (R64); the bus response is set, and a free read takes the next free value (R274; log 3). -/
def admittedRead (off : Nat) (s : State) : State :=
  match regAt off with
  | none => { s with resp := .readData 0#32 }
  | some r =>
    if readIsFree r s then { s with resp := .readData (Config.freeWord s.draws), draws := s.draws + 1 }
    else { s with resp := .readData (readReg r s) }

/-- A write that arrives while BUSY = 1 and is neither to CTRL nor to STATUS: dropped, and OVR is set
(R273 70_reset_and_hazards.md; R247). -/
def State.dropWrite (s : State) : State := { s with ovr := true }

/-- Registers whose writes are carried out while BUSY = 1: CTRL and STATUS (R273). -/
def writableWhileBusy : Option Reg → Bool
  | some .ctrl | some .status => true
  | _ => false

/-- The effect on the block of an admitted write (R61, R273): while busy only CTRL and STATUS take it; while idle
a reserved offset ignores it (R40). -/
def writeEffect (off : Nat) (v : Word) (s : State) : State :=
  if s.busy && !writableWhileBusy (regAt off) then s.dropWrite
  else
    match regAt off with
    | none => s
    | some r => writeReg r v s

/-- An admitted write, with its bus response. -/
def admittedWrite (off : Nat) (v : Word) (s : State) : State :=
  { writeEffect off v s with resp := .writeDone }

/-- Admission (R61, R62): 4 bytes wide at a 4-byte-aligned offset of the window. -/
def admitted (off width : Nat) : Bool := width == 4 && off % 4 == 0 && off ≤ 0x0FC

/-- `MemRead(off, width)` at an offset of the window: the admitted read, or a bus error with read data 0 and no
change of the block (R62; log 4). -/
def memRead (off width : Nat) (s : State) : State :=
  if admitted off width then admittedRead off s else { s with resp := .busError 0#32 }

/-- `MemWrite(off, width, v)` at an offset of the window: the admitted write, or a bus error and no change of the
block (R62; log 4). -/
def memWrite (off width : Nat) (v : Word) (s : State) : State :=
  if admitted off width then admittedWrite off v s else { s with resp := .busError 0#32 }

/-- The window: 256 bytes from BASE_ADDR (R60 20_memory.md; D3). -/
def windowOffset (addr : Nat) : Option Nat :=
  if Config.baseAddr ≤ addr ∧ addr - Config.baseAddr ≤ 0x0FF then some (addr - Config.baseAddr) else none

/-- A host transaction. One outside the window does not reach the block (D3; log 6). -/
def busTransaction (t : BusTxn) (s : State) : Host.Outcome State Fault Refusal :=
  match t with
  | .read addr width =>
    match windowOffset addr with
    | some off => .next (memRead off width s)
    | none => .fault (.outsideWindow addr)
  | .write addr width v =>
    match windowOffset addr with
    | some off => .next (memWrite off width v s)
    | none => .fault (.outsideWindow addr)

/-- Reset (R270, R271 70_reset_and_hazards.md): the block's state is exactly that of reset, a running command is
abandoned and writes that arrive meanwhile have no effect. What the outside world does next and the count of
free values drawn are not the block's and stay (log 8). -/
def State.resetBlock (s : State) : State := { State.reset with pending := s.pending, draws := s.draws }

/-- One read of WAIT's loop (R86 30_encoding.md): read STATUS, and stay at WAIT while bit 0 reads 1. -/
def waitStatus (s : State) : State :=
  let s' := memRead Reg.status.offset 4 s
  if s.busy then { s' with pending := .wait :: s'.pending } else s'

/-- The outside world's turn: one input, already taken off `pending`. -/
def takeInput (inp : Input) (s : State) : Host.Outcome State Fault Refusal :=
  match inp with
  | .bus t => busTransaction t s
  | .wait => .next (waitStatus s)
  | .reset _ => .next s.resetBlock

end Sys2Proof.Machine
end

