-- ==== Sys2Proof/Machine/Control.lean ====
section
/-!
DEFINITION. The control commands NOP, COMMIT_KEYS and ZEROIZE (40_control.md).
-/

namespace Sys2Proof.Machine

/-- NOP (R100): `finish(OK, 0)`. -/
def execNop (s : State) : Host.Outcome State Fault Refusal := finish .ok 0#32 s

/-- COMMIT_KEYS (R101): both lengths must be exactly 32 (D40: no value aliases 32). -/
def execCommitKeys (s : State) : Host.Outcome State Fault Refusal :=
  let eBad := s.ekeyLen.toNat != 32
  let iBad := s.ikeyLen.toNat != 32
  if eBad || iBad then raise .keyLength (keyLengthInfo eBad iBad) { s with keysValid := false }
  else finish .ok 0#32 { s with keysValid := true }

/-- The writes of ZEROIZE (R102). -/
def State.zeroized (s : State) : State :=
  { s with
    ek := Vector.replicate 8 0#32
    ik := Vector.replicate 8 0#32
    ekeyLen := 0#32
    ikeyLen := 0#32
    padHi := 0#32
    padLo := 0#32
    digest := Vector.replicate 5 0#32
    sigCalc := 0#32
    keysValid := false
    authOk := false }

/-- ZEROIZE (R102). -/
def execZeroize (s : State) : Host.Outcome State Fault Refusal := finish .ok 0#32 s.zeroized

end Sys2Proof.Machine
end

