-- ==== Sys2Proof/Machine/Base64.lean ====
section
/-!
DEFINITION. The base64-URL codec and its commands B64_ENC and B64_DEC (44_base64.md).
-/

namespace Sys2Proof.Machine

/-- `ALPHA` (R190): the URL-safe alphabet, row by row. -/
def alpha (v : BitVec 6) : Byte :=
  if v.toNat ≤ 25 then BitVec.ofNat 8 (0x41 + v.toNat)
  else if v.toNat ≤ 51 then BitVec.ofNat 8 (0x61 + (v.toNat - 26))
  else if v.toNat ≤ 61 then BitVec.ofNat 8 (0x30 + (v.toNat - 52))
  else if v.toNat = 62 then 0x2D#8
  else 0x5F#8

/-- `ALPHA⁻¹` (R190), defined for exactly the 64 alphabet bytes. -/
def alphaInv (c : Byte) : Option (BitVec 6) :=
  let n := c.toNat
  if 0x41 ≤ n ∧ n ≤ 0x5A then some (BitVec.ofNat 6 (n - 0x41))
  else if 0x61 ≤ n ∧ n ≤ 0x7A then some (BitVec.ofNat 6 (n - 0x61 + 26))
  else if 0x30 ≤ n ∧ n ≤ 0x39 then some (BitVec.ofNat 6 (n - 0x30 + 52))
  else if n = 0x2D then some 62#6
  else if n = 0x5F then some 63#6
  else none

/-- The four characters of a group of three bytes (R191). -/
def encodeGroup (b0 b1 b2 : Byte) : List Byte :=
  let n : BitVec 24 := b0 ++ b1 ++ b2
  [alpha (n.extractLsb' 18 6), alpha (n.extractLsb' 12 6), alpha (n.extractLsb' 6 6), alpha (n.extractLsb' 0 6)]

/-- The two characters of the last byte: `ALPHA[n[7:2]]` and `ALPHA[n[1:0] · 16]` (R191). -/
def encodeTail (b : Byte) : List Byte := [alpha (b.extractLsb' 2 6), alpha (b.extractLsb' 0 2 ++ 0#4)]

/-- `b64u_enc` (R191): the 38 characters of a 28-byte message, padding stripped (R192). -/
def b64uEnc (m : List Byte) : List Byte :=
  (List.range 9).flatMap
    (fun g => encodeGroup (m.getD (3 * g) 0#8) (m.getD (3 * g + 1) 0#8) (m.getD (3 * g + 2) 0#8)) ++
  encodeTail (m.getD 27 0#8)

/-- The three bytes of a group of four values (R193). -/
def decodeGroup (v0 v1 v2 v3 : BitVec 6) : List Byte :=
  let n : BitVec 24 := v0 ++ v1 ++ v2 ++ v3
  [n.extractLsb' 16 8, n.extractLsb' 8 8, n.extractLsb' 0 8]

/-- The last byte: `v[36]·4 + v[37][5:4]`; the low 4 bits of `v[37]` are ignored (R193; D22). -/
def decodeTail (v36 v37 : BitVec 6) : Byte := v36 ++ v37.extractLsb' 4 2

/-- `v[j] = ALPHA⁻¹(c[j])` (R193), used only after the alphabet check of R197 has passed. -/
def charValue (c : List Byte) (j : Nat) : BitVec 6 := (alphaInv (c.getD j 0x41#8)).getD 0#6

/-- `b64u_dec` (R193): the 28 bytes of 38 alphabet characters. -/
def b64uDec (c : List Byte) : List Byte :=
  (List.range 9).flatMap
    (fun g => decodeGroup (charValue c (4 * g)) (charValue c (4 * g + 1)) (charValue c (4 * g + 2))
      (charValue c (4 * g + 3))) ++
  [decodeTail (charValue c 36) (charValue c 37)]

/-- The index of the first byte outside the alphabet (R197). -/
def firstBadChar (c : List Byte) : Option Nat := c.findIdx? (fun b => (alphaInv b).isNone)

/-- The 38 characters of the token buffer, `T[0..38)` (R39, R200): `T[38]` and `T[39]` are never read. -/
def State.tokenChars (s : State) : List Byte := slice s.tokenBytes 0 38

/-- The decode checks of B64_DEC and DECODE in their order (R195): the token length (R196), then the alphabet,
lowest index first (R197). The answer is the ERR_INFO of the FORMAT failure, if any. The decoded length check
(R198) can never fail after these and is left out. -/
def formatFailure (s : State) : Option Word :=
  if s.tokenLen.toNat ≠ 38 then some formatLengthInfo
  else (firstBadChar s.tokenChars).map formatCharInfo

/-- The binary message `IV ∥ encrypted_price ∥ signature_prefix`, 28 bytes (R194). -/
def message (iv enc sig : List Byte) : List Byte := iv ++ enc ++ sig

/-- B64_ENC (R199). -/
def execB64Enc (s : State) : Host.Outcome State Fault Refusal :=
  finish .ok 0#32 (s.setToken (b64uEnc (message s.ivBytes s.encBytes s.sigBytes)))

/-- B64_DEC (R200). AUTH_OK is unchanged, and on failure so are IV, ENC_PRICE and SIG. -/
def execB64Dec (s : State) : Host.Outcome State Fault Refusal :=
  match formatFailure s with
  | some info => raise .format info s
  | none =>
    let msg := b64uDec s.tokenChars
    finish .ok 0#32 (((s.setIv (slice msg 0 16)).setEnc (slice msg 16 24)).setSig (slice msg 24 28))

end Sys2Proof.Machine
end

