-- ==== Sys2Proof/Machine/Sha1.lean ====
section
/-!
DEFINITION. SHA-1 and HMAC-SHA1 on byte strings (R140 to R151 42_hmac_sha1.md).
-/

namespace Sys2Proof.Machine

/-- Five hash words: the chaining value H0..H4, and the working variables a..e of a compression. -/
structure Hash where
  h0 : Word
  h1 : Word
  h2 : Word
  h3 : Word
  h4 : Word
  deriving DecidableEq, Repr

/-- `ROTL_n`, for 0 < n < 32 (R140). -/
def rotl (n : Nat) (x : Word) : Word := (x <<< n) ||| (x >>> (32 - n))

/-- The number of zero bytes of the padding: the least `k` with `(ℓ + 1 + k) mod 64 = 56` (R141). -/
def padZeros (len : Nat) : Nat := (119 - len % 64) % 64

/-- `M ∥ 0x80 ∥ 0x00^k ∥ be_bytes_8(8·ℓ)` (R141). -/
def sha1Pad (m : List Byte) : List Byte :=
  m ++ [0x80#8] ++ List.replicate (padZeros m.length) 0x00#8 ++ beBytes8 (BitVec.ofNat 64 (8 * m.length))

/-- The big-endian words of a string whose length is a multiple of 4 (R140, R142). -/
def wordsOfBytes : List Byte → List Word
  | b0 :: b1 :: b2 :: b3 :: rest => beWord b0 b1 b2 b3 :: wordsOfBytes rest
  | _ => []

/-- The first `n` blocks of 16 words (R142). -/
def blocksOf : Nat → List Word → List (List Word)
  | 0, _ => []
  | n + 1, ws => ws.take 16 :: blocksOf n (ws.drop 16)

/-- The initial hash value (R143). -/
def sha1Init : Hash := ⟨0x67452301#32, 0xEFCDAB89#32, 0x98BADCFE#32, 0x10325476#32, 0xC3D2E1F0#32⟩

/-- The round constant `K_t` (R144). -/
def roundConst (t : Nat) : Word :=
  if t ≤ 19 then 0x5A827999#32
  else if t ≤ 39 then 0x6ED9EBA1#32
  else if t ≤ 59 then 0x8F1BBCDC#32
  else 0xCA62C1D6#32

/-- The round function `f_t(b, c, d)` (R145): Ch, Parity, Maj, Parity. -/
def roundFun (t : Nat) (b c d : Word) : Word :=
  if t ≤ 19 then (b &&& c) ^^^ (~~~b &&& d)
  else if t ≤ 39 then b ^^^ c ^^^ d
  else if t ≤ 59 then (b &&& c) ^^^ (b &&& d) ^^^ (c &&& d)
  else b ^^^ c ^^^ d

/-- `n` more words of the message schedule, on the words so far with the newest first: `W_t` is
`ROTL_1(W_{t-3} XOR W_{t-8} XOR W_{t-14} XOR W_{t-16})` (R146). -/
def extendSchedule : Nat → List Word → List Word
  | 0, ws => ws
  | n + 1, ws =>
    extendSchedule n
      (rotl 1 (ws.getD 2 0#32 ^^^ ws.getD 7 0#32 ^^^ ws.getD 13 0#32 ^^^ ws.getD 15 0#32) :: ws)

/-- `W_0` to `W_79` of a 16-word block (R146). -/
def schedule (block : List Word) : List Word := (extendSchedule 64 block.reverse).reverse

/-- Round `t` of the compression with schedule word `w` (R147). -/
def sha1Round (t : Nat) (w : Word) (h : Hash) : Hash :=
  ⟨rotl 5 h.h0 + roundFun t h.h1 h.h2 h.h3 + h.h4 + roundConst t + w, h.h0, rotl 30 h.h1, h.h2, h.h3⟩

/-- The rounds from `t` on, one per schedule word (R147). -/
def sha1Rounds : List Word → Nat → Hash → Hash
  | [], _, h => h
  | w :: ws, t, h => sha1Rounds ws (t + 1) (sha1Round t w h)

/-- The compression of one block (R147). -/
def sha1Compress (h : Hash) (block : List Word) : Hash :=
  let g := sha1Rounds (schedule block) 0 h
  ⟨h.h0 + g.h0, h.h1 + g.h1, h.h2 + g.h2, h.h3 + g.h3, h.h4 + g.h4⟩

/-- `SHA1(M)` (R148), 20 bytes. -/
def sha1 (m : List Byte) : List Byte :=
  let ws := wordsOfBytes (sha1Pad m)
  let h := (blocksOf (ws.length / 16) ws).foldl sha1Compress sha1Init
  beBytes [h.h0, h.h1, h.h2, h.h3, h.h4]

/-- `K0 = K ∥ 0x00^(64 - len(K))` (R149). Both keys of the block are 32 bytes; no key is longer than 64. -/
def hmacKeyBlock (key : List Byte) : List Byte := key ++ List.replicate (64 - key.length) 0x00#8

/-- `HMAC_SHA1(K, m) = SHA1((K0 XOR opad) ∥ SHA1((K0 XOR ipad) ∥ m))` (R150, R151). -/
@[irreducible] def hmacSha1 (key msg : List Byte) : List Byte :=
  let k0 := hmacKeyBlock key
  sha1 (xorBytes k0 (List.replicate 64 0x5C#8) ++ sha1 (xorBytes k0 (List.replicate 64 0x36#8) ++ msg))

end Sys2Proof.Machine
end

