-- ==== Sys2Proof/Machine/Hmac.lean ====
section
/-!
DEFINITION. The HMAC-SHA1 core's commands HMAC_PAD, SIG_GEN and SIG_CHK (42_hmac_sha1.md).
-/

namespace Sys2Proof.Machine

/-- The pad digest of an IV under the encryption key: message `iv`, all 16 bytes (R154, R157). -/
def padDigest (s : State) (iv : List Byte) : List Byte := hmacSha1 s.ekBytes iv

/-- The signature digest of price bytes and IV under the integrity key: message `price_bytes ∥ iv`, the 8 price
bytes first (R155, R157). -/
def sigDigest (s : State) (price iv : List Byte) : List Byte := hmacSha1 s.ikBytes (price ++ iv)

/-- HMAC_PAD (R154): DIGEST holds all 20 bytes, PAD the first 8. -/
def execHmacPad (s : State) : Host.Outcome State Fault Refusal :=
  keyGate false s fun s =>
    let d := padDigest s s.ivBytes
    finish .ok 0#32 ((s.setDigest d).setPad (slice d 0 8))

/-- SIG_GEN (R155): the prefix goes to SIG_CALC and to SIG; AUTH_OK is unchanged. -/
def execSigGen (s : State) : Host.Outcome State Fault Refusal :=
  keyGate false s fun s =>
    let d := sigDigest s s.priceBytes s.ivBytes
    finish .ok 0#32 (((s.setDigest d).setSigCalc (slice d 0 4)).setSig (slice d 0 4))

/-- SIG_CHK (R156): the prefix is compared with SIG over all 32 bits (R158). -/
def execSigChk (s : State) : Host.Outcome State Fault Refusal :=
  keyGate true s fun s =>
    let d := sigDigest s s.priceBytes s.ivBytes
    let s1 := (s.setDigest d).setSigCalc (slice d 0 4)
    if s1.sigCalc = s1.sig then finish .ok 0#32 { s1 with authOk := true }
    else finish .authFail 0#32 { s1 with authOk := false }

end Sys2Proof.Machine
end

