-- ==== Sys2Proof/Machine/Timestamp.lean ====
section
/-!
DEFINITION. The timestamp serializer and deserializer, TIME_ENC and TIME_DEC (41_timestamp.md).
-/

namespace Sys2Proof.Machine

/-- TIME_USEC, read unsigned, exceeds 999999 (R121). -/
def State.usecOutOfRange (s : State) : Bool := s.timeUsec.toNat > 999999

/-- The IV of the time sample (R120, R121): seconds, microseconds, seconds, microseconds, big-endian. -/
def State.timeIv (s : State) : List Byte :=
  beBytes4 s.timeSec ++ beBytes4 s.timeUsec ++ beBytes4 s.timeSec ++ beBytes4 s.timeUsec

/-- TIME_ENC (R121), by its register pseudocode. -/
def execTimeEnc (s : State) : Host.Outcome State Fault Refusal :=
  if s.usecOutOfRange then raise .range rangeInfo s
  else finish .ok 0#32 { s with iv := #v[s.timeSec, s.timeUsec, s.timeSec, s.timeUsec] }

/-- TIME_DEC (R122): TS_SEC <- IV0, TS_USEC <- IV1; IV2 and IV3 are ignored (R125). -/
def execTimeDec (s : State) : Host.Outcome State Fault Refusal :=
  finish .ok 0#32 { s with tsSec := s.iv[0], tsUsec := s.iv[1] }

end Sys2Proof.Machine
end

