-- ==== Sys2Proof/Machine/Token.lean ====
section
/-!
DEFINITION. The whole-token operations ENCODE and DECODE (45_token.md), by their own pseudocode: every
intermediate value is computed within the one command (R279 70_reset_and_hazards.md).
-/

namespace Sys2Proof.Machine

/-- ENCODE (R222): NO_KEYS, then RANGE, then the eight steps. AUTH_OK is unchanged and PRICE is only read. -/
def execEncodeToken (s : State) : Host.Outcome State Fault Refusal :=
  keyGate false s fun s =>
    if s.usecOutOfRange then raise .range rangeInfo s
    else
      let iv := s.timeIv
      let pad := slice (padDigest s iv) 0 8
      let pb := s.priceBytes
      let enc := xorBytes pb pad
      let ds := sigDigest s pb iv
      let sig := slice ds 0 4
      let tok := b64uEnc (message iv enc sig)
      finish .ok 0#32
        (((((((s.setIv iv).setPad pad).setEnc enc).setDigest ds).setSigCalc sig).setSig sig).setToken tok)

/-- DECODE (R223): NO_KEYS, then FORMAT cause 1, then cause 3, each also clearing AUTH_OK; then the prefixes are
compared over all 4 bytes (R158). On AUTH_FAIL, PRICE and TS are zero. -/
def execDecodeToken (s : State) : Host.Outcome State Fault Refusal :=
  keyGate true s fun s =>
    match formatFailure s with
    | some info => raise .format info { s with authOk := false }
    | none =>
      let msg := b64uDec s.tokenChars
      let iv := slice msg 0 16
      let enc := slice msg 16 24
      let sig := slice msg 24 28
      let pad := slice (padDigest s iv) 0 8
      let pb := xorBytes enc pad
      let ds := sigDigest s pb iv
      let confirm := slice ds 0 4
      let s1 := (((((s.setIv iv).setEnc enc).setSig sig).setPad pad).setDigest ds).setSigCalc confirm
      if confirm = sig then finish .ok 0#32 { (s1.setPrice pb).setTs iv with authOk := true }
      else
        finish .authFail 0#32
          { s1 with priceHi := 0#32, priceLo := 0#32, tsSec := 0#32, tsUsec := 0#32, authOk := false }

end Sys2Proof.Machine
end

