-- ==== Sys2Proof/Machine/Xor.lean ====
section
/-!
DEFINITION. The XOR cipher's commands XOR_MASK and XOR_UNMASK (43_xor_cipher.md).
-/

namespace Sys2Proof.Machine

/-- XOR_MASK (R181): `E[i] <- PRICEb[i] XOR PADb[i]`, whatever PAD holds (R180). -/
def execXorMask (s : State) : Host.Outcome State Fault Refusal :=
  finish .ok 0#32 (s.setEnc (xorBytes s.priceBytes s.padBytes))

/-- XOR_UNMASK (R182): `P[i] <- ENCb[i] XOR PADb[i]`; the result is not authenticated. -/
def execXorUnmask (s : State) : Host.Outcome State Fault Refusal :=
  finish .ok 0#32 (s.setPrice (xorBytes s.encBytes s.padBytes))

end Sys2Proof.Machine
end

