-- ==== Sys2Proof/Machine/Dispatch.lean ====
section
/-! DEFINITION. The dispatch of a command to its meaning: one arm per row of the opcode map (R83 30_encoding.md). -/

namespace Sys2Proof.Machine

/-- The completion of the command `i` on the state `s` (R243 60_exceptions.md). -/
def exec (i : Instr) (s : State) : Host.Outcome State Fault Refusal :=
  match i with
  | .nop => Sys2Proof.Machine.execNop s
  | .commitKeys => Sys2Proof.Machine.execCommitKeys s
  | .zeroize => Sys2Proof.Machine.execZeroize s
  | .timeEnc => Sys2Proof.Machine.execTimeEnc s
  | .timeDec => Sys2Proof.Machine.execTimeDec s
  | .hmacPad => Sys2Proof.Machine.execHmacPad s
  | .sigGen => Sys2Proof.Machine.execSigGen s
  | .sigChk => Sys2Proof.Machine.execSigChk s
  | .xorMask => Sys2Proof.Machine.execXorMask s
  | .xorUnmask => Sys2Proof.Machine.execXorUnmask s
  | .b64Enc => Sys2Proof.Machine.execB64Enc s
  | .b64Dec => Sys2Proof.Machine.execB64Dec s
  | .encodeToken => Sys2Proof.Machine.execEncodeToken s
  | .decodeToken => Sys2Proof.Machine.execDecodeToken s

end Sys2Proof.Machine
end

