-- ==== Sys2Proof/Machine/Engine.lean ====
section
/-!
DEFINITION. The engine's turn: when it comes, and what it does (R20, R41 10_state.md; R68 20_memory.md; R243
60_exceptions.md; R276 70_reset_and_hazards.md).
-/

namespace Sys2Proof.Machine

/-- The engine moves next when it is busy and the running command outlasts no further host transaction: its lag
is used up, or the host has nothing more to issue (R73 20_memory.md: "the pending completion must still be
taken"). -/
def engineTurn (s : State) : Bool := s.busy && (s.lag == 0 || s.pending.isEmpty)

/-- The running command completes (R243): the latched word is decoded (R81) and its command run, or ILLEGAL_CMD
reported (R255). An idle engine does nothing. -/
def runEngine (s : State) : Host.Outcome State Fault Refusal :=
  match s.eng with
  | .idle => .next s
  | .busy w =>
    match decodeWord w with
    | .ok i => exec i s
    | .error _ => illegalCommand w s

/-- The outside world's turn: its next input. One that a running command outlasts uses up one of its lag. With
no input left an idle block keeps every register (R254 60_exceptions.md). -/
def runHost (s : State) : Host.Outcome State Fault Refusal :=
  match s.pending with
  | [] => .next s
  | inp :: rest => takeInput inp { s with pending := rest, lag := s.lag - 1 }

/-- `w` as the accepted CMD word of an engine whose turn is next: BUSY = 1 and DONE = 0, as acceptance leaves
them (R80 30_encoding.md), with no lag. -/
def State.placeCommand (w : Word) (s : State) : State := { s with eng := .busy w, done := false, lag := 0 }

end Sys2Proof.Machine
end

