-- ==== Sys2Proof/Machine/Step.lean ====
section
/-! DEFINITION. One step of the block with its host, and where a command word is fetched from. -/

namespace Sys2Proof.Machine

/-- One step: the engine's completion or one input of the outside world (R20 10_state.md; R68 20_memory.md). -/
def step (s : State) : Host.Outcome State Fault Refusal :=
  if engineTurn s then runEngine s else runHost s

/-- `s` with a command word where `step` fetches its next instruction: the engine's latch (R41 10_state.md), an
idle engine's acceptance having taken place. Log 10. -/
def State.withFetchWord (s : State) (nbits w : Nat) : State :=
  s.placeCommand (BitVec.ofNat 32 (w % 2 ^ nbits))

end Sys2Proof.Machine
end

