-- ==== Sys2Proof/Safety.lean ====
section
/-!
DEFINITION. The invariants and relations the claims are stated with.
-/

namespace Sys2Proof.Machine

/-- RESULT and ERR_INFO agree as R240 and R241 (60_exceptions.md) give them: codes 7 to 15 are never produced,
ERR_INFO is the value of the code, and FORMAT never reports cause 2 (R198 44_base64.md). -/
def resultInfoAgree (result : BitVec 4) (info : Word) : Prop :=
  (result = ResultCode.ok.bits ∧ info = 0#32) ∨
  (result = ResultCode.keyLength.bits ∧ (info = 1#32 ∨ info = 2#32 ∨ info = 3#32)) ∨
  (result = ResultCode.format.bits ∧ (info = 1#32 ∨ ∃ j : Nat, j < 38 ∧ info = BitVec.ofNat 32 (256 * j + 3))) ∨
  (result = ResultCode.range.bits ∧ info = 1#32) ∨
  (result = ResultCode.authFail.bits ∧ info = 0#32) ∨
  (result = ResultCode.noKeys.bits ∧ info = 0#32) ∨
  (result = ResultCode.illegalCmd.bits ∧ legalWord info = false)

/-- The block's invariant: while a command runs DONE is 0 (R25 10_state.md); a committed key pair has both
lengths 32 (R101 40_control.md); RESULT and ERR_INFO agree (R240, R241). -/
structure Inv (s : State) : Prop where
  busy_not_done : s.busy = true → s.done = false
  committed_lengths : s.keysValid = true → s.ekeyLen = 32#32 ∧ s.ikeyLen = 32#32
  result_info : resultInfoAgree s.result s.errInfo

/-- The key store with its claimed lengths (R27, R28 10_state.md). -/
def State.keyStore (s : State) : Vector Word 8 × Vector Word 8 × Word × Word :=
  (s.ek, s.ik, s.ekeyLen, s.ikeyLen)

/-- Two states that differ in the key bytes only. -/
def sameButKeys (s t : State) : Prop := ∃ ek ik : Vector Word 8, t = { s with ek := ek, ik := ik }

/-- The completion a command leaves behind (R243 60_exceptions.md): its RESULT and ERR_INFO, DONE set, the engine
Idle. -/
def CompletedWith (t : State) (code : ResultCode) (info : Word) : Prop :=
  t.result = code.bits ∧ t.errInfo = info ∧ t.done = true ∧ t.eng = .idle

/-- The data registers a host write changes and a read shows back (RW in R21 10_state.md), CTRL and STATUS apart. -/
def Reg.isReadWriteData : Reg → Bool
  | .ekeyLen | .ikeyLen | .timeSec | .timeUsec | .priceHi | .priceLo | .encPriceHi | .encPriceLo
  | .iv _ | .sig | .tokenLen | .token _ => true
  | .id | .ctrl | .cmd | .status | .errInfo | .ekey _ | .ikey _ | .tsSec | .tsUsec | .sigCalc | .padHi | .padLo
  | .digest _ => false

/-- `j` is the index of the first of the 38 token characters outside the alphabet (R197 44_base64.md). -/
def firstBadAt (s : State) (j : Nat) : Prop :=
  j < 38 ∧ alphaInv (s.tokenBytes.getD j 0#8) = none ∧
  ∀ k, k < j → (alphaInv (s.tokenBytes.getD k 0#8)).isSome = true

/-- The token passes the checks of R196 and R197 (44_base64.md): length 38, every character in the alphabet. -/
def tokenAccepted (s : State) : Prop :=
  s.tokenLen = 38#32 ∧ ∀ j, j < 38 → (alphaInv (s.tokenBytes.getD j 0#8)).isSome = true

/-- The 28-byte message the token's characters carry (R193 44_base64.md). -/
def State.tokenMessage (s : State) : List Byte := b64uDec s.tokenChars

/-- Running a list of commands one after the other, each to completion, with no host transaction between them. -/
def execAll : List Instr → State → Host.Outcome State Fault Refusal
  | [], s => .next s
  | i :: is, s =>
    match exec i s with
    | .next s' => execAll is s'
    | .fault f => .fault f
    | .refused r => .refused r

/-- `n` steps of the block with its host, stopping at a fault or a refusal. -/
def runSteps : Nat → State → Host.Outcome State Fault Refusal
  | 0, s => .next s
  | n + 1, s =>
    match step s with
    | .next s' => runSteps n s'
    | .fault f => .fault f
    | .refused r => .refused r

end Sys2Proof.Machine
end

