-- ==== Sys2Proof/Certificates/Slice0/Obligations.lean ====
section
/-!
DEFINITION. The statements for the provers, each formalising the rules of spec/ its docstring names. A frame is
said by an equality `t = { s with f := t.f, … }`: every field not named is unchanged. The block has no memory
(R60 20_memory.md), so the frame of a command is that of its registers.
-/

open Sys2Proof Sys2Proof.Machine

/-! ## Encoding -/

/-- R83: the 14 words of the opcode map and the "keys" column. -/
def Obligations.OpcodeMapWordsDecode : Prop :=
  decodeWord 0x00000000#32 = .ok .nop ∧ decodeWord 0x00000001#32 = .ok .commitKeys ∧
  decodeWord 0x00000002#32 = .ok .zeroize ∧ decodeWord 0x00000010#32 = .ok .timeEnc ∧
  decodeWord 0x00000011#32 = .ok .timeDec ∧ decodeWord 0x00000020#32 = .ok .hmacPad ∧
  decodeWord 0x00000021#32 = .ok .sigGen ∧ decodeWord 0x00000022#32 = .ok .sigChk ∧
  decodeWord 0x00000030#32 = .ok .xorMask ∧ decodeWord 0x00000031#32 = .ok .xorUnmask ∧
  decodeWord 0x00000040#32 = .ok .b64Enc ∧ decodeWord 0x00000041#32 = .ok .b64Dec ∧
  decodeWord 0x00000050#32 = .ok .encodeToken ∧ decodeWord 0x00000051#32 = .ok .decodeToken ∧
  ∀ i : Instr, needsKeys i = true ↔
    (i = .hmacPad ∨ i = .sigGen ∨ i = .sigChk ∨ i = .encodeToken ∨ i = .decodeToken)

/-- R80, R81, R83: a word decodes to a well-formed command exactly when it is that command's encoding. -/
def Obligations.DecodeAgreesWithEncode : Prop :=
  ∀ (i : Instr) (w : Word), i.wellFormed = true → (decodeWord w = .ok i ↔ w = encode i)

/-- R81, R84: the decoder, written from the map of R83, accepts exactly the words that R84's list of illegal
encodings leaves. -/
def Obligations.DecodeAcceptsExactlyLegalWords : Prop :=
  ∀ w : Word, (∃ i, decodeWord w = .ok i) ↔ legalWord w = true

/-! ## Acceptance, the step, completion -/

/-- R80, R273: a write to CMD by the host starts a command on an idle engine, and is dropped on a busy one whose
completion is not due. The draw of `lag` is the model's (log 2). -/
def Obligations.CommandWriteIsAcceptedOrDropped : Prop :=
  ∀ (s : State) (w : Word) (rest : List Input),
    s.pending = .bus (.write (Config.baseAddr + 0x008) 4 w) :: rest →
    (s.eng = .idle →
      step s = .next { s with
        eng := .busy w, done := false, lag := Config.freeLag s.draws, draws := s.draws + 1,
        pending := rest, resp := .writeDone }) ∧
    (∀ u, s.eng = .busy u → s.lag ≠ 0 →
      step s = .next { s with ovr := true, lag := s.lag - 1, pending := rest, resp := .writeDone })

/-- R41, R68, R81: when the engine's turn comes, a step is the meaning of the latched word's command; before it, a
step is the outside world's next input. That the turn comes with `lag` used up is the model's (log 2). -/
def Obligations.StepRunsTheLatchedCommand : Prop :=
  ∀ (s : State) (w : Word), s.eng = .busy w →
    (∀ i, decodeWord w = .ok i → (s.lag = 0 ∨ s.pending = []) → step s = exec i s) ∧
    (∀ inp rest, s.pending = inp :: rest → s.lag ≠ 0 →
      step s = takeInput inp { s with pending := rest, lag := s.lag - 1 })

/-- R243, R244: whatever word is latched, its completion is a next state: the engine Idle, DONE set, `irq` following
IRQ_EN; the key bytes stand unless ZEROIZE succeeded; and the next CMD write is accepted. -/
def Obligations.EveryLatchedWordCompletes : Prop :=
  ∀ (s : State) (w : Word), s.eng = .busy w →
    ∃ t, runEngine s = .next t ∧ t.eng = .idle ∧ t.done = true ∧ t.irq = s.irqEn ∧
      (t.result ≠ ResultCode.ok.bits → t.ek = s.ek ∧ t.ik = s.ik) ∧
      ∀ v, (memWrite 0x008 4 v t).eng = .busy v

/-- R243: a failure other than AUTH_FAIL leaves everything but STATUS and ERR_INFO as it was, and of STATUS only
what the exceptions listed there write. -/
def Obligations.FailureWritesOnlyStatus : Prop :=
  ∀ (i : Instr) (s t : State), exec i s = .next t →
    t.result ≠ ResultCode.ok.bits → t.result ≠ ResultCode.authFail.bits →
    t = { s with
      result := t.result, errInfo := t.errInfo, done := true, eng := .idle,
      keysValid := if i = .commitKeys then false else s.keysValid,
      authOk := if i = .sigChk ∨ i = .decodeToken then false else s.authOk }

/-- R274's write sets as a frame of every command: a register outside the command's write set, STATUS and ERR_INFO
apart, reads as before, and so do the fields no register shows; the key bytes change under ZEROIZE only. -/
def Obligations.CommandsKeepRegistersOutsideWriteSet : Prop :=
  ∀ (i : Instr) (s t : State), exec i s = .next t →
    (∀ r, inWriteSet i r = false → r ≠ .status → r ≠ .errInfo → readReg r t = readReg r s) ∧
    t.irqEn = s.irqEn ∧ t.ovr = s.ovr ∧ t.pending = s.pending ∧ t.resp = s.resp ∧ t.draws = s.draws ∧
    (i ≠ .zeroize → t.ek = s.ek ∧ t.ik = s.ik) ∧
    (i ≠ .zeroize → i ≠ .commitKeys → t.keysValid = s.keysValid) ∧
    (i ≠ .zeroize → i ≠ .sigChk → i ≠ .decodeToken → t.authOk = s.authOk)

/-- R255: an illegal word is accepted like any command and completes with ILLEGAL_CMD and the word, writing nothing
else. -/
def Obligations.IllegalWordCompletesWithIllegalCmd : Prop :=
  ∀ (s : State) (v : Word), legalWord v = false →
    (s.eng = .idle → (memWrite 0x008 4 v s).eng = .busy v ∧ (memWrite 0x008 4 v s).done = false) ∧
    (s.eng = .busy v → (s.lag = 0 ∨ s.pending = []) →
      step s = .next { s with result := 6#4, errInfo := v, done := true, eng := .idle })

/-- R103: a keyed command without committed keys completes with NO_KEYS and 0, whatever else holds; SIG_CHK and
DECODE also clear AUTH_OK; nothing else is written. -/
def Obligations.KeyedCommandsWithoutKeysRaiseNoKeys : Prop :=
  ∀ (i : Instr) (s : State), needsKeys i = true → s.keysValid = false →
    exec i s = .next { s with
      result := 5#4, errInfo := 0#32, done := true, eng := .idle,
      authOk := if i = .sigChk ∨ i = .decodeToken then false else s.authOk }

/-- R242: of several failures only the first of the order is reported: ILLEGAL_CMD before all, NO_KEYS, RANGE for
ENCODE, FORMAT length then the lowest bad character for B64_DEC and DECODE, then AUTH_FAIL. -/
def Obligations.FirstFailureInOrderIsReported : Prop :=
  (∀ (s : State) (v : Word), s.eng = .busy v → legalWord v = false →
    ∃ t, runEngine s = .next t ∧ CompletedWith t .illegalCmd v) ∧
  (∀ (i : Instr) (s : State), needsKeys i = true → s.keysValid = false →
    ∃ t, exec i s = .next t ∧ CompletedWith t .noKeys 0#32) ∧
  (∀ s : State, s.keysValid = true → 999999 < s.timeUsec.toNat →
    ∃ t, exec .encodeToken s = .next t ∧ CompletedWith t .range 1#32) ∧
  (∀ (i : Instr) (s : State), (i = .b64Dec ∨ i = .decodeToken ∧ s.keysValid = true) →
    (s.tokenLen ≠ 38#32 → ∃ t, exec i s = .next t ∧ CompletedWith t .format 1#32) ∧
    (∀ j, s.tokenLen = 38#32 → firstBadAt s j →
      ∃ t, exec i s = .next t ∧ CompletedWith t .format (BitVec.ofNat 32 (256 * j + 3))) ∧
    (tokenAccepted s →
      ∃ t, exec i s = .next t ∧
        (CompletedWith t .ok 0#32 ∨ i = .decodeToken ∧ CompletedWith t .authFail 0#32)))

/-- R240: each result code comes from its commands under its condition only; ILLEGAL_CMD from illegal words only;
codes 7 to 15 from nothing. -/
def Obligations.ResultCodesComeFromTheirConditions : Prop :=
  (∀ (i : Instr) (s t : State), exec i s = .next t →
    (t.result = 1#4 → i = .commitKeys ∧ (s.ekeyLen ≠ 32#32 ∨ s.ikeyLen ≠ 32#32)) ∧
    (t.result = 2#4 → (i = .b64Dec ∨ i = .decodeToken) ∧ ¬ tokenAccepted s) ∧
    (t.result = 3#4 → (i = .timeEnc ∨ i = .encodeToken) ∧ 999999 < s.timeUsec.toNat) ∧
    (t.result = 4#4 → (i = .sigChk ∨ i = .decodeToken) ∧ t.sigCalc ≠ t.sig) ∧
    (t.result = 5#4 → needsKeys i = true ∧ s.keysValid = false)) ∧
  (∀ (s t : State) (w : Word), s.eng = .busy w → runEngine s = .next t →
    t.result.toNat ≤ 6 ∧ (t.result = 6#4 ↔ legalWord w = false))

/-! ## Control commands -/

/-- R100: NOP completes with OK and 0 and changes nothing else. -/
def Obligations.NopOnlyCompletes : Prop :=
  ∀ s : State, exec .nop s = .next { s with result := 0#4, errInfo := 0#32, done := true, eng := .idle }

/-- R101: COMMIT_KEYS succeeds exactly when both lengths are 32; ERR_INFO of a failure has bit 0 for the encryption
key and bit 1 for the integrity key. -/
def Obligations.CommitKeysChecksBothLengths : Prop :=
  (∀ s : State, s.ekeyLen = 32#32 → s.ikeyLen = 32#32 →
    exec .commitKeys s =
      .next { s with keysValid := true, result := 0#4, errInfo := 0#32, done := true, eng := .idle }) ∧
  (∀ s : State, ¬ (s.ekeyLen = 32#32 ∧ s.ikeyLen = 32#32) →
    exec .commitKeys s =
      .next { s with
        keysValid := false, result := 1#4, done := true, eng := .idle,
        errInfo := (if s.ekeyLen = 32#32 then 0#32 else 1#32) + (if s.ikeyLen = 32#32 then 0#32 else 2#32) })

/-- R102: ZEROIZE erases the keys, their lengths, PAD, DIGEST and SIG_CALC, clears KEYS_VALID and AUTH_OK, and
leaves the rest. -/
def Obligations.ZeroizeErasesSecrets : Prop :=
  ∀ s : State, ∃ t, exec .zeroize s = .next t ∧ CompletedWith t .ok 0#32 ∧
    (∀ k : Fin 8, t.ek[k] = 0#32 ∧ t.ik[k] = 0#32) ∧ t.ekeyLen = 0#32 ∧ t.ikeyLen = 0#32 ∧
    t.padHi = 0#32 ∧ t.padLo = 0#32 ∧ (∀ k : Fin 5, t.digest[k] = 0#32) ∧ t.sigCalc = 0#32 ∧
    t.keysValid = false ∧ t.authOk = false ∧
    t = { s with
      ek := t.ek, ik := t.ik, ekeyLen := t.ekeyLen, ikeyLen := t.ikeyLen, padHi := t.padHi, padLo := t.padLo,
      digest := t.digest, sigCalc := t.sigCalc, keysValid := t.keysValid, authOk := t.authOk,
      result := t.result, errInfo := t.errInfo, done := t.done, eng := t.eng }

/-! ## Timestamp -/

/-- R121: with TIME_USEC at most 999999, the IV's bytes become sec ∥ usec ∥ sec ∥ usec, big-endian; otherwise
RANGE(1) and the IV stands. -/
def Obligations.TimeEncPacksTheSample : Prop :=
  (∀ s : State, s.timeUsec.toNat ≤ 999999 →
    ∃ t, exec .timeEnc s = .next t ∧ CompletedWith t .ok 0#32 ∧
      t.ivBytes = beBytes4 s.timeSec ++ beBytes4 s.timeUsec ++ beBytes4 s.timeSec ++ beBytes4 s.timeUsec ∧
      t = { s with iv := t.iv, result := t.result, errInfo := t.errInfo, done := t.done, eng := t.eng }) ∧
  (∀ s : State, 999999 < s.timeUsec.toNat →
    exec .timeEnc s = .next { s with result := 3#4, errInfo := 1#32, done := true, eng := .idle })

/-- R122: TIME_DEC takes the first 8 bytes of the IV as two words and ignores the rest. -/
def Obligations.TimeDecReadsFirstEightBytes : Prop :=
  ∀ s : State, ∃ t, exec .timeDec s = .next t ∧ CompletedWith t .ok 0#32 ∧
    beBytes4 t.tsSec ++ beBytes4 t.tsUsec = s.ivBytes.take 8 ∧
    t = { s with tsSec := t.tsSec, tsUsec := t.tsUsec, result := t.result, errInfo := t.errInfo, done := t.done,
                 eng := t.eng }

/-- R126: the round trip through the block is exact. -/
def Obligations.TimeRoundTripIsExact : Prop :=
  ∀ s : State, s.timeUsec.toNat ≤ 999999 →
    ∃ t u, exec .timeEnc s = .next t ∧ t.result = 0#4 ∧ exec .timeDec t = .next u ∧ u.result = 0#4 ∧
      u.tsSec = s.timeSec ∧ u.tsUsec = s.timeUsec

/-! ## HMAC-SHA1 -/

/-- R141: SHA-1's padding is the message, 0x80, the least number of zero bytes that makes the length right, and the
length in bits; the padded length is a multiple of 64. -/
def Obligations.Sha1PaddingIsMinimal : Prop :=
  ∀ m : List Byte, ∃ k,
    sha1Pad m = m ++ [0x80#8] ++ List.replicate k 0x00#8 ++ beBytes8 (BitVec.ofNat 64 (8 * m.length)) ∧
    (m.length + 1 + k) % 64 = 56 ∧ (∀ j, (m.length + 1 + j) % 64 = 56 → k ≤ j) ∧ (sha1Pad m).length % 64 = 0

/-- R146: the message schedule of a 16-word block by its recurrence. -/
def Obligations.Sha1ScheduleRecurrence : Prop :=
  ∀ block : List Word, block.length = 16 →
    (schedule block).length = 80 ∧
    (∀ t, t < 16 → (schedule block).getD t 0#32 = block.getD t 0#32) ∧
    (∀ t, 16 ≤ t → t < 80 →
      (schedule block).getD t 0#32 =
        rotl 1 ((schedule block).getD (t - 3) 0#32 ^^^ (schedule block).getD (t - 8) 0#32 ^^^
          (schedule block).getD (t - 14) 0#32 ^^^ (schedule block).getD (t - 16) 0#32))

/-- R154: HMAC_PAD leaves the 20-byte digest of the IV under the encryption key in DIGEST and its first 8 bytes in
PAD. -/
def Obligations.HmacPadDerivesPad : Prop :=
  ∀ s : State, s.keysValid = true →
    ∃ t, exec .hmacPad s = .next t ∧ CompletedWith t .ok 0#32 ∧
      t.digestBytes = hmacSha1 s.ekBytes s.ivBytes ∧ t.padBytes = (hmacSha1 s.ekBytes s.ivBytes).take 8 ∧
      t = { s with digest := t.digest, padHi := t.padHi, padLo := t.padLo, result := t.result,
                   errInfo := t.errInfo, done := t.done, eng := t.eng }

/-- R155, R157: SIG_GEN leaves the digest of `price ∥ iv` under the integrity key in DIGEST and its first 4 bytes in
SIG and SIG_CALC. -/
def Obligations.SigGenPlacesPrefix : Prop :=
  ∀ s : State, s.keysValid = true →
    ∃ t, exec .sigGen s = .next t ∧ CompletedWith t .ok 0#32 ∧
      t.digestBytes = hmacSha1 s.ikBytes (s.priceBytes ++ s.ivBytes) ∧
      t.sigBytes = (hmacSha1 s.ikBytes (s.priceBytes ++ s.ivBytes)).take 4 ∧ t.sigCalc = t.sig ∧
      t = { s with digest := t.digest, sigCalc := t.sigCalc, sig := t.sig, result := t.result,
                   errInfo := t.errInfo, done := t.done, eng := t.eng }

/-- R156, R158: SIG_CHK recomputes the prefix into SIG_CALC and completes with OK and AUTH_OK = 1 exactly when all 4
bytes equal SIG, else with AUTH_FAIL and AUTH_OK = 0; SIG is not written. -/
def Obligations.SigChkComparesPrefix : Prop :=
  ∀ s : State, s.keysValid = true →
    ∃ t, exec .sigChk s = .next t ∧
      t.digestBytes = hmacSha1 s.ikBytes (s.priceBytes ++ s.ivBytes) ∧
      t.sigCalcBytes = (hmacSha1 s.ikBytes (s.priceBytes ++ s.ivBytes)).take 4 ∧
      (t.sigCalcBytes = s.sigBytes → CompletedWith t .ok 0#32 ∧ t.authOk = true) ∧
      (t.sigCalcBytes ≠ s.sigBytes → CompletedWith t .authFail 0#32 ∧ t.authOk = false) ∧
      t = { s with digest := t.digest, sigCalc := t.sigCalc, authOk := t.authOk, result := t.result,
                   errInfo := t.errInfo, done := t.done, eng := t.eng }

/-! ## XOR cipher -/

/-- R181: byte by byte ENC_PRICE is PRICE XOR PAD, and so it is word by word. -/
def Obligations.XorMaskMasksPrice : Prop :=
  ∀ s : State, ∃ t, exec .xorMask s = .next t ∧ CompletedWith t .ok 0#32 ∧
    (∀ i, i < 8 → t.encBytes.getD i 0#8 = s.priceBytes.getD i 0#8 ^^^ s.padBytes.getD i 0#8) ∧
    t.encPriceHi = s.priceHi ^^^ s.padHi ∧ t.encPriceLo = s.priceLo ^^^ s.padLo ∧
    t = { s with encPriceHi := t.encPriceHi, encPriceLo := t.encPriceLo, result := t.result,
                 errInfo := t.errInfo, done := t.done, eng := t.eng }

/-- R182: byte by byte PRICE is ENC_PRICE XOR PAD. -/
def Obligations.XorUnmaskRecoversPrice : Prop :=
  ∀ s : State, ∃ t, exec .xorUnmask s = .next t ∧ CompletedWith t .ok 0#32 ∧
    (∀ i, i < 8 → t.priceBytes.getD i 0#8 = s.encBytes.getD i 0#8 ^^^ s.padBytes.getD i 0#8) ∧
    t.priceHi = s.encPriceHi ^^^ s.padHi ∧ t.priceLo = s.encPriceLo ^^^ s.padLo ∧
    t = { s with priceHi := t.priceHi, priceLo := t.priceLo, result := t.result, errInfo := t.errInfo,
                 done := t.done, eng := t.eng }

/-- R183: XOR_MASK then XOR_UNMASK leaves PRICE as it was, and the other way round leaves ENC_PRICE. -/
def Obligations.XorCommandsAreInverse : Prop :=
  ∀ s : State,
    (∃ t, execAll [.xorMask, .xorUnmask] s = .next t ∧ t.priceHi = s.priceHi ∧ t.priceLo = s.priceLo) ∧
    (∃ t, execAll [.xorUnmask, .xorMask] s = .next t ∧ t.encPriceHi = s.encPriceHi ∧
      t.encPriceLo = s.encPriceLo)

/-! ## Base64-URL codec -/

/-- R190: `ALPHA` is one-to-one and `ALPHA⁻¹` is defined on exactly its image. -/
def Obligations.AlphabetIsOneToOne : Prop :=
  (∀ (v : BitVec 6) (c : Byte), alphaInv c = some v ↔ alpha v = c) ∧ alphaInv 0x3D#8 = none

/-- R199: B64_ENC writes the 38 characters of IV ∥ ENC_PRICE ∥ SIG and two zero bytes to TOKEN, and 38 to
TOKEN_LEN; the last character is one of A, Q, g, w. -/
def Obligations.B64EncWritesToken : Prop :=
  ∀ s : State, ∃ t, exec .b64Enc s = .next t ∧ CompletedWith t .ok 0#32 ∧
    t.tokenBytes = b64uEnc (s.ivBytes ++ s.encBytes ++ s.sigBytes) ++ [0x00#8, 0x00#8] ∧ t.tokenLen = 38#32 ∧
    t.tokenBytes.getD 37 0#8 ∈ [0x41#8, 0x51#8, 0x67#8, 0x77#8] ∧
    t = { s with token := t.token, tokenLen := t.tokenLen, result := t.result, errInfo := t.errInfo,
                 done := t.done, eng := t.eng }

/-- R200: B64_DEC splits an accepted token's message into IV, ENC_PRICE and SIG, and on a FORMAT failure leaves
them. -/
def Obligations.B64DecSplitsToken : Prop :=
  (∀ s : State, tokenAccepted s →
    ∃ t, exec .b64Dec s = .next t ∧ CompletedWith t .ok 0#32 ∧
      t.ivBytes ++ t.encBytes ++ t.sigBytes = s.tokenMessage ∧
      t = { s with iv := t.iv, encPriceHi := t.encPriceHi, encPriceLo := t.encPriceLo, sig := t.sig,
                   result := t.result, errInfo := t.errInfo, done := t.done, eng := t.eng }) ∧
  (∀ s : State, s.tokenLen ≠ 38#32 →
    exec .b64Dec s = .next { s with result := 2#4, errInfo := 1#32, done := true, eng := .idle }) ∧
  (∀ (s : State) (j : Nat), s.tokenLen = 38#32 → firstBadAt s j →
    exec .b64Dec s = .next { s with result := 2#4, errInfo := 3#32 ||| (BitVec.ofNat 32 j <<< 8), done := true,
                                    eng := .idle })

/-- R201 (a): B64_DEC after B64_ENC restores IV, ENC_PRICE and SIG exactly. -/
def Obligations.B64DecAfterEncRestoresFields : Prop :=
  ∀ s : State, ∃ t, execAll [.b64Enc, .b64Dec] s = .next t ∧ CompletedWith t .ok 0#32 ∧
    t.iv = s.iv ∧ t.encPriceHi = s.encPriceHi ∧ t.encPriceLo = s.encPriceLo ∧ t.sig = s.sig

/-- R201 (b): B64_ENC after a successful B64_DEC rewrites the same characters, the last one with its four tail bits
cleared. -/
def Obligations.B64EncAfterDecNormalisesLastChar : Prop :=
  ∀ s : State, tokenAccepted s →
    ∃ t v, execAll [.b64Dec, .b64Enc] s = .next t ∧ alphaInv (s.tokenBytes.getD 37 0#8) = some v ∧
      t.tokenBytes = s.tokenBytes.take 37 ++ [alpha (v &&& 0b110000#6), 0x00#8, 0x00#8]

/-- R201 (c): two accepted tokens carry the same message exactly when their first 37 characters are equal and the top
two bits of their last characters' values are. -/
def Obligations.TokensAgreeUpToTailBits : Prop :=
  ∀ (s s' : State) (v v' : BitVec 6), tokenAccepted s → tokenAccepted s' →
    alphaInv (s.tokenBytes.getD 37 0#8) = some v → alphaInv (s'.tokenBytes.getD 37 0#8) = some v' →
    (s.tokenMessage = s'.tokenMessage ↔
      s.tokenBytes.take 37 = s'.tokenBytes.take 37 ∧ v.extractLsb' 4 2 = v'.extractLsb' 4 2)

/-! ## Whole tokens -/

/-- R222, R227: ENCODE. Without keys NO_KEYS, then on a time sample out of range RANGE(1), each writing no data
register; otherwise every register it writes, and nothing else, the token being 38 alphabet characters. -/
def Obligations.EncodeMakesToken : Prop :=
  (∀ s : State, s.keysValid = false →
    exec .encodeToken s = .next { s with result := 5#4, errInfo := 0#32, done := true, eng := .idle }) ∧
  (∀ s : State, s.keysValid = true → 999999 < s.timeUsec.toNat →
    exec .encodeToken s = .next { s with result := 3#4, errInfo := 1#32, done := true, eng := .idle }) ∧
  (∀ s : State, s.keysValid = true → s.timeUsec.toNat ≤ 999999 →
    ∃ t, exec .encodeToken s = .next t ∧ CompletedWith t .ok 0#32 ∧
      t.ivBytes = beBytes4 s.timeSec ++ beBytes4 s.timeUsec ++ beBytes4 s.timeSec ++ beBytes4 s.timeUsec ∧
      t.padBytes = (hmacSha1 s.ekBytes t.ivBytes).take 8 ∧
      (∀ i, i < 8 → t.encBytes.getD i 0#8 = s.priceBytes.getD i 0#8 ^^^ t.padBytes.getD i 0#8) ∧
      t.digestBytes = hmacSha1 s.ikBytes (s.priceBytes ++ t.ivBytes) ∧
      t.sigBytes = t.digestBytes.take 4 ∧ t.sigCalc = t.sig ∧
      t.tokenBytes = b64uEnc (t.ivBytes ++ t.encBytes ++ t.sigBytes) ++ [0x00#8, 0x00#8] ∧ tokenAccepted t ∧
      t = { s with iv := t.iv, padHi := t.padHi, padLo := t.padLo, encPriceHi := t.encPriceHi,
                   encPriceLo := t.encPriceLo, digest := t.digest, sigCalc := t.sigCalc, sig := t.sig,
                   token := t.token, tokenLen := t.tokenLen, result := t.result, errInfo := t.errInfo,
                   done := t.done, eng := t.eng })

/-- R223, R230: DECODE. Without keys NO_KEYS, on another length FORMAT 1, on a character outside the alphabet FORMAT
3 with the first index, each clearing AUTH_OK and writing no data register. On an accepted token the fields, the
pad and the recomputed prefix; OK with price and time, and AUTH_OK = 1, exactly when the prefixes are equal, else
AUTH_FAIL with PRICE and TS zero. -/
def Obligations.DecodeChecksToken : Prop :=
  (∀ s : State, s.keysValid = false →
    exec .decodeToken s =
      .next { s with result := 5#4, errInfo := 0#32, authOk := false, done := true, eng := .idle }) ∧
  (∀ s : State, s.keysValid = true → s.tokenLen ≠ 38#32 →
    exec .decodeToken s =
      .next { s with result := 2#4, errInfo := 1#32, authOk := false, done := true, eng := .idle }) ∧
  (∀ (s : State) (j : Nat), s.keysValid = true → s.tokenLen = 38#32 → firstBadAt s j →
    exec .decodeToken s =
      .next { s with result := 2#4, errInfo := 3#32 ||| (BitVec.ofNat 32 j <<< 8), authOk := false, done := true,
                     eng := .idle }) ∧
  (∀ s : State, s.keysValid = true → tokenAccepted s →
    ∃ t, exec .decodeToken s = .next t ∧
      t.ivBytes ++ t.encBytes ++ t.sigBytes = s.tokenMessage ∧
      t.padBytes = (hmacSha1 s.ekBytes t.ivBytes).take 8 ∧
      t.digestBytes = hmacSha1 s.ikBytes (xorBytes t.encBytes t.padBytes ++ t.ivBytes) ∧
      t.sigCalcBytes = t.digestBytes.take 4 ∧
      (t.sigCalc = t.sig →
        CompletedWith t .ok 0#32 ∧ t.authOk = true ∧ t.priceBytes = xorBytes t.encBytes t.padBytes ∧
        beBytes4 t.tsSec ++ beBytes4 t.tsUsec = t.ivBytes.take 8) ∧
      (t.sigCalc ≠ t.sig →
        CompletedWith t .authFail 0#32 ∧ t.authOk = false ∧ t.priceHi = 0#32 ∧ t.priceLo = 0#32 ∧
        t.tsSec = 0#32 ∧ t.tsUsec = 0#32) ∧
      t = { s with iv := t.iv, encPriceHi := t.encPriceHi, encPriceLo := t.encPriceLo, sig := t.sig,
                   padHi := t.padHi, padLo := t.padLo, digest := t.digest, sigCalc := t.sigCalc,
                   priceHi := t.priceHi, priceLo := t.priceLo, tsSec := t.tsSec, tsUsec := t.tsUsec,
                   authOk := t.authOk, result := t.result, errInfo := t.errInfo, done := t.done, eng := t.eng })

/-- R224: ENCODE and the sequence TIME_ENC, HMAC_PAD, XOR_MASK, SIG_GEN, B64_ENC leave the same state, every command
of the sequence completing with RESULT = 0; without keys ENCODE writes no data register, while TIME_ENC still
writes the IV. -/
def Obligations.EncodeEqualsPrimitiveSequence : Prop :=
  ∀ s : State, s.timeUsec.toNat ≤ 999999 →
    (s.keysValid = true →
      (∃ t, exec .encodeToken s = .next t ∧
        execAll [.timeEnc, .hmacPad, .xorMask, .sigGen, .b64Enc] s = .next t) ∧
      (∀ p, p <+: [Instr.timeEnc, .hmacPad, .xorMask, .sigGen, .b64Enc] → p ≠ [] →
        ∃ u, execAll p s = .next u ∧ u.result = 0#4)) ∧
    (s.keysValid = false →
      exec .encodeToken s = .next { s with result := 5#4, errInfo := 0#32, done := true, eng := .idle } ∧
      ∃ t, exec .timeEnc s = .next t ∧ t.iv = #v[s.timeSec, s.timeUsec, s.timeSec, s.timeUsec])

/-- R225: DECODE of an accepted token and the sequence B64_DEC, HMAC_PAD, XOR_UNMASK, SIG_CHK and then TIME_DEC, or,
on a mismatch, the zeroing of PRICE and TS, leave the same state; without keys DECODE writes no data register,
while B64_DEC still writes its fields. -/
def Obligations.DecodeEqualsPrimitiveSequence : Prop :=
  ∀ s : State, tokenAccepted s →
    (s.keysValid = true →
      ∃ u, execAll [.b64Dec, .hmacPad, .xorUnmask, .sigChk] s = .next u ∧
        (u.sigCalc = u.sig → exec .decodeToken s = exec .timeDec u) ∧
        (u.sigCalc ≠ u.sig →
          exec .decodeToken s =
            .next { u with priceHi := 0#32, priceLo := 0#32, tsSec := 0#32, tsUsec := 0#32 })) ∧
    (s.keysValid = false →
      exec .decodeToken s =
        .next { s with result := 5#4, errInfo := 0#32, authOk := false, done := true, eng := .idle } ∧
      ∃ t, exec .b64Dec s = .next t ∧ t.ivBytes ++ t.encBytes ++ t.sigBytes = s.tokenMessage)

/-- R226: ENCODE, then DECODE with no host write between them, gives back price and time, always. -/
def Obligations.DecodeOfEncodeRestoresPriceAndTime : Prop :=
  ∀ s : State, s.keysValid = true → s.timeUsec.toNat ≤ 999999 →
    ∃ t, execAll [.encodeToken, .decodeToken] s = .next t ∧ CompletedWith t .ok 0#32 ∧ t.authOk = true ∧
      t.priceHi = s.priceHi ∧ t.priceLo = s.priceLo ∧ t.tsSec = s.timeSec ∧ t.tsUsec = s.timeUsec

/-- R228: changes to a token that DECODE accepts. (a) Only the signature field: AUTH_FAIL, always. (b) IV or
encrypted price: OK exactly when the prefix recomputed from the changed fields equals the carried one. (c) Only the
tail bits of the last character: DECODE still succeeds. -/
def Obligations.ChangedTokenIsAcceptedExactlyOnMatch : Prop :=
  ∀ (s t : State) (tok : Vector Word 10),
    s.keysValid = true → exec .decodeToken s = .next t → t.result = 0#4 →
    tokenAccepted { s with token := tok } →
    ∃ t', exec .decodeToken { s with token := tok } = .next t' ∧
      (let m := s.tokenMessage
       let m' := ({ s with token := tok } : State).tokenMessage
       let iv' := m'.take 16
       let pb' := xorBytes ((m'.drop 16).take 8) ((hmacSha1 s.ekBytes iv').take 8)
       (m'.take 24 = m.take 24 → m'.drop 24 ≠ m.drop 24 → t'.result = 4#4) ∧
       (m'.take 24 ≠ m.take 24 →
         (t'.result = 0#4 ↔ (hmacSha1 s.ikBytes (pb' ++ iv')).take 4 = m'.drop 24) ∧
         (t'.result = 0#4 ∨ t'.result = 4#4)) ∧
       (∀ v v', alphaInv (s.tokenBytes.getD 37 0#8) = some v →
         alphaInv (({ s with token := tok } : State).tokenBytes.getD 37 0#8) = some v' →
         s.tokenBytes.take 37 = ({ s with token := tok } : State).tokenBytes.take 37 →
         v.extractLsb' 4 2 = v'.extractLsb' 4 2 → t'.result = 0#4))

/-- R231: DECODE of the source's known token under the source's keys, whatever else the state holds, with the end
state of V1 (95_test_vectors.md). -/
def Obligations.KnownVectorDecodes : Prop :=
  ∀ s : State, s.keysValid = true →
    s.ek = #v[0xB08C70CF#32, 0xBCB0EB6C#32, 0xAB7E82C6#32, 0xB75DA520#32, 0x72AE62B2#32, 0xBF4B990B#32,
              0xB80A48D8#32, 0x141EEC07#32] →
    s.ik = #v[0xBF77EC55#32, 0xC30130C1#32, 0xD8CD1862#32, 0xED2A4CD2#32, 0xC76AC33B#32, 0xC0C4CE8A#32,
              0x3D3BBD3A#32, 0xD5687792#32] →
    s.tokenLen = 38#32 →
    s.token = #v[0x536A7076#32, 0x52774142#32, 0x346B4237#32, 0x6A457067#32, 0x57354941#32, 0x38703733#32,
                 0x65773969#32, 0x6336565A#32, 0x70467350#32, 0x6E410000#32] →
    ∃ t, exec .decodeToken s = .next t ∧ CompletedWith t .ok 0#32 ∧ t.authOk = true ∧
      t.priceHi = 0#32 ∧ t.priceLo = 709959680#32 ∧ t.tsSec = 1245343559#32 ∧ t.tsUsec = 123456#32 ∧
      t.iv = #v[0x4A3A6F47#32, 0x0001E240#32, 0x7B8C4A60#32, 0x5B9200F2#32] ∧ t.encPriceHi = 0x9EF77B0F#32 ∧
      t.encPriceLo = 0x6273A559#32 ∧ t.sig = 0xA45B0F9C#32 ∧ t.sigCalc = 0xA45B0F9C#32 ∧
      t.padHi = 0x9EF77B0F#32 ∧ t.padLo = 0x48228559#32 ∧
      t.digest = #v[0xA45B0F9C#32, 0x3A3D602F#32, 0x89BEF540#32, 0x67E74DBC#32, 0x8DFD4B26#32] ∧
      (s.ovr = false → t.statusWord = 0x0000000E#32)

/-- R221: ENCODE and DECODE are functions of the registers the rule lists: two states that agree on those complete
alike and write the same values, DECODE on AUTH_FAIL (RESULT = 4) too. -/
def Obligations.TokenCommandsDependOnOperandsOnly : Prop :=
  (∀ s s' t t' : State,
    s.keysValid = s'.keysValid → s.ek = s'.ek → s.ik = s'.ik → s.priceHi = s'.priceHi → s.priceLo = s'.priceLo →
    s.timeSec = s'.timeSec → s.timeUsec = s'.timeUsec →
    exec .encodeToken s = .next t → exec .encodeToken s' = .next t' →
    t.result = t'.result ∧ t.errInfo = t'.errInfo ∧
    (t.result = 0#4 →
      t.iv = t'.iv ∧ t.padHi = t'.padHi ∧ t.padLo = t'.padLo ∧ t.encPriceHi = t'.encPriceHi ∧
      t.encPriceLo = t'.encPriceLo ∧ t.digest = t'.digest ∧ t.sig = t'.sig ∧ t.sigCalc = t'.sigCalc ∧
      t.token = t'.token ∧ t.tokenLen = t'.tokenLen)) ∧
  (∀ s s' t t' : State,
    s.keysValid = s'.keysValid → s.ek = s'.ek → s.ik = s'.ik → s.tokenLen = s'.tokenLen →
    s.tokenBytes.take 38 = s'.tokenBytes.take 38 →
    exec .decodeToken s = .next t → exec .decodeToken s' = .next t' →
    t.result = t'.result ∧ t.errInfo = t'.errInfo ∧ t.authOk = t'.authOk ∧
    (t.result = 0#4 ∨ t.result = 4#4 →
      t.iv = t'.iv ∧ t.encPriceHi = t'.encPriceHi ∧ t.encPriceLo = t'.encPriceLo ∧ t.sig = t'.sig ∧
      t.padHi = t'.padHi ∧ t.padLo = t'.padLo ∧ t.digest = t'.digest ∧ t.sigCalc = t'.sigCalc ∧
      t.priceHi = t'.priceHi ∧ t.priceLo = t'.priceLo ∧ t.tsSec = t'.tsSec ∧ t.tsUsec = t'.tsUsec))

/-! ## Registers and the bus -/

/-- R25: the fields of STATUS as read, the reserved bits 0, and a host write's W1C effect at any time. -/
def Obligations.StatusFieldsAndClears : Prop :=
  (∀ s : State,
    (readReg .status s).getLsbD 0 = s.busy ∧ (readReg .status s).getLsbD 1 = s.done ∧
    (readReg .status s).getLsbD 2 = s.keysValid ∧ (readReg .status s).getLsbD 3 = s.authOk ∧
    (readReg .status s).getLsbD 4 = s.ovr ∧ (readReg .status s).extractLsb' 5 3 = 0#3 ∧
    (readReg .status s).extractLsb' 8 4 = s.result ∧ (readReg .status s).extractLsb' 12 20 = 0#20) ∧
  (∀ (s : State) (v : Word),
    memWrite 0x00C 4 v s =
      { s with done := s.done && !v.getLsbD 1, ovr := s.ovr && !v.getLsbD 4, resp := .writeDone })

/-- R23, R246: CTRL holds IRQ_EN alone, is written at any time and by no command; `irq` is IRQ_EN AND DONE, low
while a command runs that the block's invariant holds of. -/
def Obligations.CtrlGatesTheInterrupt : Prop :=
  State.reset.irqEn = false ∧
  (∀ (s : State) (v : Word),
    memWrite 0x004 4 v s = { s with irqEn := v.getLsbD 0, resp := .writeDone } ∧
    (readReg .ctrl s).getLsbD 0 = s.irqEn ∧ (readReg .ctrl s).extractLsb' 1 31 = 0#31) ∧
  (∀ (i : Instr) (s t : State), exec i s = .next t → t.irqEn = s.irqEn ∧ t.irq = s.irqEn) ∧
  (∀ s : State, (s.irqEn = true → s.irq = s.done) ∧ (s.irqEn = false → s.irq = false)) ∧
  (∀ s : State, Inv s → s.busy = true → s.irq = false)

/-- R21, R27, R29, R31 to R34, R38, R39: a write to a read-write data register of an idle block reads back, and leaves
every other register, the keys and STATUS as they were, but that a key-length write clears KEYS_VALID (R44). -/
def Obligations.DataRegisterWriteReadsBack : Prop :=
  ∀ (s : State) (r : Reg) (v : Word), s.eng = .idle → r.isReadWriteData = true →
    ∃ t, memWrite r.offset 4 v s = t ∧ (memRead r.offset 4 t).resp = .readData v ∧
      (∀ q, q ≠ r → q ≠ .status → readReg q t = readReg q s) ∧ t.ek = s.ek ∧ t.ik = s.ik ∧
      t.keysValid = (s.keysValid && !(r == .ekeyLen || r == .ikeyLen)) ∧
      t.eng = s.eng ∧ t.done = s.done ∧ t.authOk = s.authOk ∧ t.ovr = s.ovr ∧ t.result = s.result

/-- R28, R44, R66: a key-word write to an idle block stores the word, whose bytes stand at 4k to 4k+3 of the key,
most significant first, and clears KEYS_VALID; the register reads 0 before and after. -/
def Obligations.KeyWordWriteClearsKeysValid : Prop :=
  ∀ (s : State) (k : Fin 8) (v : Word), s.eng = .idle →
    (∃ t, memWrite (0x020 + 4 * k.val) 4 v s = t ∧ t.keysValid = false ∧
      (∀ i, i < 32 → t.ekBytes.getD i 0#8 =
        if i / 4 = k.val then v.extractLsb' (24 - 8 * (i % 4)) 8 else s.ekBytes.getD i 0#8) ∧
      (memRead (0x020 + 4 * k.val) 4 t).resp = .readData 0#32 ∧
      t = { s with ek := t.ek, keysValid := false, resp := .writeDone }) ∧
    (∃ t, memWrite (0x040 + 4 * k.val) 4 v s = t ∧ t.keysValid = false ∧
      (∀ i, i < 32 → t.ikBytes.getD i 0#8 =
        if i / 4 = k.val then v.extractLsb' (24 - 8 * (i % 4)) 8 else s.ikBytes.getD i 0#8) ∧
      (memRead (0x040 + 4 * k.val) 4 t).resp = .readData 0#32 ∧
      t = { s with ik := t.ik, keysValid := false, resp := .writeDone })

/-- R22 to R26, R30, R35 to R37, R40: on an idle block a write to a read-only register or a reserved offset is ignored,
and a read of any register answers its value and changes nothing of the block: CMD reads 0, CTRL, STATUS and the
read-only registers what they hold. Reserved offsets read 0 and ID its constant in every state. -/
def Obligations.ReadOnlyAndReservedIgnoreWrites : Prop :=
  (∀ (s : State) (off : Nat) (v : Word), s.eng = .idle →
    off ∈ [0x000, 0x010, 0x01C, 0x068, 0x06C, 0x094, 0x098, 0x09C, 0x0A0, 0x0A4, 0x0A8, 0x0AC, 0x0B0, 0x0B4,
           0x0B8, 0x0BC, 0x0EC, 0x0F0, 0x0F4, 0x0F8, 0x0FC] →
    memWrite off 4 v s = { s with resp := .writeDone }) ∧
  (∀ (s : State) (off : Nat),
    off ∈ [0x01C, 0x0B4, 0x0B8, 0x0BC, 0x0EC, 0x0F0, 0x0F4, 0x0F8, 0x0FC] →
    memRead off 4 s = { s with resp := .readData 0#32 }) ∧
  (∀ s : State, memRead 0x000 4 s = { s with resp := .readData 0x52544231#32 }) ∧
  (∀ (s : State) (r : Reg), s.eng = .idle → memRead r.offset 4 s = { s with resp := .readData (readReg r s) }) ∧
  (∀ (s : State) (off : Nat) (v : Word), s.eng = .idle →
    (off, v) ∈ [(0x004, s.ctrlWord), (0x008, 0#32), (0x00C, s.statusWord), (0x010, s.errInfo), (0x068, s.tsSec),
                (0x06C, s.tsUsec), (0x094, s.sigCalc), (0x098, s.padHi), (0x09C, s.padLo), (0x0A0, s.digest[0]),
                (0x0A4, s.digest[1]), (0x0A8, s.digest[2]), (0x0AC, s.digest[3]), (0x0B0, s.digest[4])] →
    memRead off 4 s = { s with resp := .readData v })

/-- R62: a transaction in the window that is misaligned or not 4 bytes wide is answered with a bus error and read
data 0, and changes no register of the block, OVR among them. That it is a next state is the model's reading (log
4). -/
def Obligations.BusErrorChangesNoRegister : Prop :=
  ∀ (s : State) (off width : Nat) (v : Word) (rest : List Input),
    engineTurn s = false → off ≤ 0x0FF → (width ≠ 4 ∨ off % 4 ≠ 0) →
    (s.pending = .bus (.read (Config.baseAddr + off) width) :: rest →
      step s = .next { s with pending := rest, lag := s.lag - 1, resp := .busError 0#32 }) ∧
    (s.pending = .bus (.write (Config.baseAddr + off) width v) :: rest →
      step s = .next { s with pending := rest, lag := s.lag - 1, resp := .busError 0#32 })

/-- D3 and the model's choice (log 6): a transaction outside the 256-byte window does not reach the block, and the
model stops there. -/
def Obligations.TransactionOutsideWindowStops : Prop :=
  ∀ (s : State) (addr width : Nat) (v : Word),
    (addr < Config.baseAddr ∨ Config.baseAddr + 0x100 ≤ addr) →
    busTransaction (.read addr width) s = .fault (.outsideWindow addr) ∧
    busTransaction (.write addr width v) s = .fault (.outsideWindow addr)

/-- R64: reads have no side effects (the model's response and draw count apart, logs 3 and 4), two reads of an idle
block agree, and every write other than to CMD and STATUS is idempotent. -/
def Obligations.ReadsHaveNoSideEffects : Prop :=
  (∀ (s : State) (off width : Nat),
    memRead off width s = { s with resp := (memRead off width s).resp, draws := (memRead off width s).draws }) ∧
  (∀ (s : State) (off width : Nat), s.eng = .idle →
    (memRead off width (memRead off width s)).resp = (memRead off width s).resp) ∧
  (∀ (s : State) (off width : Nat) (v : Word), off ≠ 0x008 → off ≠ 0x00C →
    memWrite off width v (memWrite off width v s) = memWrite off width v s)

/-- R274: while a command runs, a read of a register in its write set is a free value (its form is the model's, log
3); a running illegal word has the empty write set; STATUS and ERR_INFO read their previous values with BUSY = 1 and, under the block's invariant, DONE = 0; key
registers read 0; every other register reads its value. -/
def Obligations.BusyReadsOfWriteSetAreFree : Prop :=
  ∀ (s : State) (w : Word) (r : Reg), s.eng = .busy w →
    (∀ i, decodeWord w = .ok i → wordWriteSet w r = inWriteSet i r) ∧
    (legalWord w = false → wordWriteSet w r = false) ∧
    (wordWriteSet w r = true → r.isKey = false →
      memRead r.offset 4 s = { s with resp := .readData (Config.freeWord s.draws), draws := s.draws + 1 }) ∧
    (wordWriteSet w r = false ∨ r.isKey = true →
      memRead r.offset 4 s = { s with resp := .readData (readReg r s) }) ∧
    (r.isKey = true → readReg r s = 0#32) ∧
    memRead 0x00C 4 s = { s with resp := .readData s.statusWord } ∧ s.statusWord.getLsbD 0 = true ∧
    (Inv s → s.statusWord.getLsbD 1 = false) ∧
    memRead 0x010 4 s = { s with resp := .readData s.errInfo }

/-- R273: while a command runs, an admitted write to anything but CTRL and STATUS changes nothing but OVR, which it
sets; writes to CTRL and STATUS are carried out; a bus error does not set OVR. -/
def Obligations.BusyWritesAreDropped : Prop :=
  ∀ (s : State) (w : Word) (off : Nat) (v : Word), s.eng = .busy w →
    (off % 4 = 0 → off ≤ 0x0FC → off ≠ 0x004 → off ≠ 0x00C →
      memWrite off 4 v s = { s with ovr := true, resp := .writeDone }) ∧
    memWrite 0x004 4 v s = { s with irqEn := v.getLsbD 0, resp := .writeDone } ∧
    memWrite 0x00C 4 v s =
      { s with done := s.done && !v.getLsbD 1, ovr := s.ovr && !v.getLsbD 4, resp := .writeDone } ∧
    (∀ width, width ≠ 4 ∨ off % 4 ≠ 0 → (memWrite off width v s).ovr = s.ovr)

/-- R28 (with D12 92_eei_decisions.md): no host transaction shows anything of the key bytes: two blocks that differ in
them only answer alike and still differ in them only. Free values are equal at equal draw counts (log 13). -/
def Obligations.BusNeverRevealsKeyBytes : Prop :=
  ∀ (s s' t : State) (b : BusTxn), sameButKeys s s' → busTransaction b s = .next t →
    ∃ t', busTransaction b s' = .next t' ∧ sameButKeys t t'

/-! ## Whole-machine rules -/

/-- R270: every register of R21's map reads its reset value, the key bytes are 0, the engine is Idle, `irq` is 0. -/
def Obligations.ResetValues : Prop :=
  (∀ off, off % 4 = 0 → off ≤ 0x0FC →
    (memRead off 4 State.reset).resp = .readData (if off = 0x000 then 0x52544231#32 else 0#32)) ∧
  (∀ k : Fin 8, State.reset.ek[k] = 0#32 ∧ State.reset.ik[k] = 0#32) ∧
  State.reset.eng = .idle ∧ State.reset.irq = false

/-- R271: reset abandons a running command and writes that arrive during it have no effect: the block is exactly in
the reset state, the model's own count of draws and the rest of the outside world's inputs apart (log 8). -/
def Obligations.ResetAbandonsRunningCommand : Prop :=
  ∀ (s : State) (lost : List (Nat × Word)) (rest : List Input),
    engineTurn s = false → s.pending = .reset lost :: rest →
    step s = .next { State.reset with pending := rest, draws := s.draws }

/-- The invariant holds at reset. -/
def Obligations.InvariantHoldsAtReset : Prop := Inv State.reset

/-- R25, R41, R101, R240, R241: from every state with the invariant, a step to a next state keeps it. -/
def Obligations.StepKeepsInvariant : Prop := ∀ s t : State, Inv s → step s = .next t → Inv t

/-- R44: while KEYS_VALID = 1 the key store does not change, over any step. -/
def Obligations.KeyStoreFixedWhileKeysValid : Prop :=
  ∀ s t : State, step s = .next t → t.keysValid = true → t.keyStore = s.keyStore

/-- R273, R68: while a command runs and until it completes or a reset comes, no input changes its operands, the word
it was accepted with, KEYS_VALID, AUTH_OK, RESULT or ERR_INFO. -/
def Obligations.RunningCommandOperandsAreStable : Prop :=
  ∀ s t : State, s.busy = true → engineTurn s = false →
    (∀ lost rest, s.pending ≠ .reset lost :: rest) → step s = .next t →
    t = { s with irqEn := t.irqEn, done := t.done, ovr := t.ovr, lag := t.lag, draws := t.draws,
                 pending := t.pending, resp := t.resp }

/-- R247: OVR is set only by a write other than to CTRL or STATUS that arrives while BUSY = 1, which changes neither
RESULT nor the running command, and cleared only by a 1 written to bit 4 of STATUS or by reset. -/
def Obligations.OverrunIsSticky : Prop :=
  ∀ s t : State, step s = .next t →
    (s.ovr = false → t.ovr = true →
      s.busy = true ∧ t.result = s.result ∧ t.eng = s.eng ∧
      ∃ off v rest, s.pending = .bus (.write (Config.baseAddr + off) 4 v) :: rest ∧
        off % 4 = 0 ∧ off ≤ 0x0FC ∧ off ≠ 0x004 ∧ off ≠ 0x00C) ∧
    (s.ovr = true → t.ovr = false →
      ∃ rest, (∃ v : Word, v.getLsbD 4 = true ∧
          s.pending = .bus (.write (Config.baseAddr + 0x00C) 4 v) :: rest) ∨
        ∃ lost, s.pending = .reset lost :: rest)

/-- R26, R245: RESULT and ERR_INFO change at completions and at reset only, whatever the host writes. -/
def Obligations.ResultKeptUntilNextCompletion : Prop :=
  ∀ s t : State, step s = .next t → engineTurn s = false → (∀ lost rest, s.pending ≠ .reset lost :: rest) →
    t.result = s.result ∧ t.errInfo = s.errInfo

/-- R276, R73: a WAIT on a running command ends, after as many reads as the command outlasts, its completion and one
read more, with DONE set and the script going on; and whatever in-window transactions the host issues meanwhile, an
accepted command has completed, or been reset, after at most `lag + 1` steps. The bound is the model's (log 2). -/
def Obligations.EveryAcceptedCommandCompletes : Prop :=
  (∀ (s : State) (rest : List Input), s.busy = true → s.pending = .wait :: rest →
    ∃ t, runSteps (s.lag + 2) s = .next t ∧ t.busy = false ∧ t.done = true ∧ t.pending = rest) ∧
  (∀ s : State, s.busy = true →
    (∀ inp, inp ∈ s.pending → ∀ b, inp = .bus b →
      ∃ off, off ≤ 0x0FF ∧ ((∃ n, b = .read (Config.baseAddr + off) n) ∨
        ∃ n v, b = .write (Config.baseAddr + off) n v)) →
    ∃ n t, n ≤ s.lag + 1 ∧ runSteps n s = .next t ∧ t.busy = false)
end

