-- ==== Sys2Proof/Laws/Bytes.lean ====
section
/-!
SUPPORT. Byte order: words and their big-endian bytes determine each other (R10 00_scope.md, R46 10_state.md), and
the lengths of the byte views.
-/

namespace Sys2Proof.Machine

@[simp] theorem beBytes4_length (w : Word) : (beBytes4 w).length = 4 := rfl

@[simp] theorem beBytes8_length (v : BitVec 64) : (beBytes8 v).length = 8 := rfl

@[simp] theorem beBytes_nil : beBytes [] = [] := rfl

@[simp] theorem beBytes_cons (w : Word) (ws : List Word) : beBytes (w :: ws) = beBytes4 w ++ beBytes ws := by
  simp [beBytes]

@[simp] theorem beBytes_length (ws : List Word) : (beBytes ws).length = 4 * ws.length := by
  induction ws with
  | nil => rfl
  | cons w ws ih => simp [ih]; omega

/-- The bits of `be_val`: byte 0 is the most significant. -/
theorem getLsbD_beWord (a b c d : Byte) (i : Nat) :
    (beWord a b c d).getLsbD i =
      if i < 8 then d.getLsbD i
      else if i < 16 then c.getLsbD (i - 8)
      else if i < 24 then b.getLsbD (i - 16)
      else a.getLsbD (i - 24) := by
  simp only [beWord, BitVec.getLsbD_append]
  by_cases h0 : i < 8
  · simp [h0]
  · by_cases h1 : i < 16
    · simp [h0, h1, show i - 8 < 8 by omega]
    · by_cases h2 : i < 24
      · simp [h0, h1, h2, show ¬ i - 8 < 8 by omega, show i - 8 - 8 = i - 16 by omega, show i - 16 < 8 by omega]
      · simp [h0, h1, h2, show ¬ i - 8 < 8 by omega, show ¬ i - 8 - 8 < 8 by omega,
          show i - 8 - 8 - 8 = i - 24 by omega]

/-- `be_val` undoes `be_bytes_4`. -/
theorem beWord_bytes (w : Word) :
    beWord (w.extractLsb' 24 8) (w.extractLsb' 16 8) (w.extractLsb' 8 8) (w.extractLsb' 0 8) = w := by
  apply BitVec.eq_of_getLsbD_eq
  intro i hi
  simp only [getLsbD_beWord, BitVec.getLsbD_extractLsb']
  by_cases h0 : i < 8
  · simp [h0]
  · by_cases h1 : i < 16
    · simp [h0, h1, show i - 8 < 8 by omega, show 8 + (i - 8) = i by omega]
    · by_cases h2 : i < 24
      · simp [h0, h1, h2, show i - 16 < 8 by omega, show 16 + (i - 16) = i by omega]
      · simp [h0, h1, h2, show i - 24 < 8 by omega, show 24 + (i - 24) = i by omega]

/-- `be_bytes_4` undoes `be_val`. -/
theorem beBytes4_beWord (a b c d : Byte) : beBytes4 (beWord a b c d) = [a, b, c, d] := by
  simp only [beBytes4, List.cons.injEq, and_true]
  refine ⟨?_, ?_, ?_, ?_⟩ <;>
    (apply BitVec.eq_of_getLsbD_eq
     intro i hi
     simp only [BitVec.getLsbD_extractLsb', getLsbD_beWord, hi])
  · simp [show ¬ 24 + i < 8 by omega, show ¬ 24 + i < 16 by omega, show ¬ 24 + i < 24 by omega]
  · simp [show ¬ 16 + i < 8 by omega, show ¬ 16 + i < 16 by omega, show 16 + i < 24 by omega]
  · simp [show ¬ 8 + i < 8 by omega, show 8 + i < 16 by omega]
  · simp [hi]

/-- Word 0 of a string that begins with the bytes of `w`. -/
@[simp] theorem wordAt_zero (w : Word) (t : List Byte) : wordAt (beBytes4 w ++ t) 0 = w := by
  simp [wordAt, beBytes4, beWord_bytes]

/-- Later words of such a string. -/
@[simp] theorem wordAt_succ (w : Word) (t : List Byte) (k : Nat) :
    wordAt (beBytes4 w ++ t) (k + 1) = wordAt t k := by
  simp [wordAt, beBytes4, Nat.mul_add]

/-- The bytes of one word stand at its own place in any string of whole words. -/
theorem wordAt_beBytes (ws : List Word) (k : Nat) (h : k < ws.length) : wordAt (beBytes ws) k = ws[k] := by
  induction ws generalizing k with
  | nil => simp at h
  | cons w ws ih =>
    cases k with
    | zero => simp
    | succ k => simpa using ih k (by simpa using h)

/-- A string of four bytes is the bytes of its word. -/
theorem beBytes4_wordAt (s : List Byte) (h : s.length = 4) : beBytes4 (wordAt s 0) = s := by
  match s, h with
  | [a, b, c, d], _ => simp [wordAt, beBytes4_beWord]

@[simp] theorem State.ekBytes_length (s : State) : s.ekBytes.length = 32 := by simp [State.ekBytes]
@[simp] theorem State.ikBytes_length (s : State) : s.ikBytes.length = 32 := by simp [State.ikBytes]
@[simp] theorem State.ivBytes_length (s : State) : s.ivBytes.length = 16 := by simp [State.ivBytes]
@[simp] theorem State.priceBytes_length (s : State) : s.priceBytes.length = 8 := by simp [State.priceBytes]
@[simp] theorem State.encBytes_length (s : State) : s.encBytes.length = 8 := by simp [State.encBytes]
@[simp] theorem State.padBytes_length (s : State) : s.padBytes.length = 8 := by simp [State.padBytes]
@[simp] theorem State.sigBytes_length (s : State) : s.sigBytes.length = 4 := by simp [State.sigBytes]
@[simp] theorem State.sigCalcBytes_length (s : State) : s.sigCalcBytes.length = 4 := by simp [State.sigCalcBytes]
@[simp] theorem State.digestBytes_length (s : State) : s.digestBytes.length = 20 := by simp [State.digestBytes]
@[simp] theorem State.tokenBytes_length (s : State) : s.tokenBytes.length = 40 := by simp [State.tokenBytes]

/-- The bytes of the two words written from an 8-byte string are that string. -/
theorem beBytes_words2 (s : List Byte) (h : s.length = 8) : beBytes4 (wordAt s 0) ++ beBytes4 (wordAt s 1) = s := by
  match s, h with
  | [a, b, c, d, e, f, g, i], _ => simp [wordAt, beBytes4_beWord]

/-- The bytes of the words of a string of whole words are that string. -/
theorem beBytes_map_wordAt (n : Nat) (s : List Byte) (h : s.length = 4 * n) :
    beBytes ((List.range n).map (wordAt s)) = s := by
  induction n generalizing s with
  | zero => simp [List.eq_nil_of_length_eq_zero h]
  | succ n ih =>
    match s, h with
    | a :: b :: c :: d :: t, h =>
      have ht : t.length = 4 * n := by simp only [List.length_cons] at h; omega
      have hs : wordAt (a :: b :: c :: d :: t) ∘ Nat.succ = wordAt t := by
        funext k; simp [wordAt, Nat.mul_add]
      rw [List.range_succ_eq_map, List.map_cons, List.map_map, hs, beBytes_cons, ih t ht]
      simp [wordAt, beBytes4_beWord]

/-- The bytes of the four words written from a 16-byte string are that string. -/
theorem beBytes_words4 (s : List Byte) (h : s.length = 16) : beBytes (words4 s).toList = s :=
  beBytes_map_wordAt 4 s h

/-- The bytes of the five words written from a 20-byte string are that string. -/
theorem beBytes_words5 (s : List Byte) (h : s.length = 20) : beBytes (words5 s).toList = s :=
  beBytes_map_wordAt 5 s h

/-- The bytes of the ten words written from a 40-byte string are that string. -/
theorem beBytes_words10 (s : List Byte) (h : s.length = 40) : beBytes (words10 s).toList = s :=
  beBytes_map_wordAt 10 s h

/-- `be_bytes_4` is one to one. -/
theorem beBytes4_inj {a b : Word} : beBytes4 a = beBytes4 b ↔ a = b := by
  constructor
  · intro h
    have h1 : wordAt (beBytes4 a ++ []) 0 = wordAt (beBytes4 b ++ []) 0 := by rw [h]
    simpa only [wordAt_zero] using h1
  · rintro rfl; rfl

/-- Two words are determined by their 8 bytes. -/
theorem beBytes4_append_inj {a b c d : Word} (h : beBytes4 a ++ beBytes4 b = beBytes4 c ++ beBytes4 d) :
    a = c ∧ b = d := by
  obtain ⟨h1, h2⟩ := List.append_inj h (by simp)
  exact ⟨beBytes4_inj.mp h1, beBytes4_inj.mp h2⟩

/-- A word is determined by its 4 bytes. -/
theorem wordAt_zero_inj {a b : List Byte} (ha : a.length = 4) (hb : b.length = 4)
    (h : wordAt a 0 = wordAt b 0) : a = b := by
  rw [← beBytes4_wordAt a ha, ← beBytes4_wordAt b hb, h]

/-- Registers of four words are determined by their bytes. -/
theorem vector4_of_bytes {a b : Vector Word 4} (h : beBytes a.toList = beBytes b.toList) : a = b := by
  apply Vector.toList_inj.mp
  apply List.ext_getElem
  · simp
  · intro i h1 h2
    rw [← wordAt_beBytes _ _ h1, ← wordAt_beBytes _ _ h2, h]

/-- The bytewise XOR of two pairs of words is the wordwise one (R181, R182 43_xor_cipher.md). -/
theorem xorBytes_words (a b c d : Word) :
    xorBytes (beBytes4 a ++ beBytes4 b) (beBytes4 c ++ beBytes4 d) = beBytes4 (a ^^^ c) ++ beBytes4 (b ^^^ d) := by
  simp [xorBytes, beBytes4, BitVec.extractLsb'_xor]

/-- The two words of an 8-byte string written from two words. -/
theorem wordAt_pair (a b : Word) :
    wordAt (beBytes4 a ++ beBytes4 b) 0 = a ∧ wordAt (beBytes4 a ++ beBytes4 b) 1 = b := by
  refine ⟨wordAt_zero a _, ?_⟩
  rw [wordAt_succ]; simpa using wordAt_zero b []

theorem slice_zero (d : List Byte) (n : Nat) : slice d 0 n = d.take n := by simp [slice]

/-- The three fields of a 28-byte message (R194 44_base64.md): their lengths, and that they make the message. -/
theorem slice_message (m : List Byte) (h : m.length = 28) :
    (slice m 0 16).length = 16 ∧ (slice m 16 24).length = 8 ∧ (slice m 24 28).length = 4 ∧
    slice m 0 16 ++ slice m 16 24 ++ slice m 24 28 = m := by
  refine ⟨by simp [slice, h], by simp [slice, h], by simp [slice, h], ?_⟩
  have h3 : (m.drop 24).take 4 = m.drop 24 := List.take_of_length_le (by simp [h])
  have h4 : (m.drop 16).take 8 ++ m.drop 24 = m.drop 16 := by
    have := List.take_append_drop 8 (m.drop 16)
    rwa [List.drop_drop] at this
  simp only [slice, List.drop_zero]
  rw [List.append_assoc]
  show List.take 16 m ++ (List.take 8 (m.drop 16) ++ List.take 4 (m.drop 24)) = m
  rw [h3, h4, List.take_append_drop]

end Sys2Proof.Machine
end

