-- ==== Sys2Proof/Laws/Base64.lean ====
section
/-! SUPPORT. The base64-URL codec by its pieces (R190 to R193 44_base64.md). -/

namespace Sys2Proof.Machine

/-- `ALPHA⁻¹` undoes `ALPHA`. -/
@[simp] theorem alphaInv_alpha (v : BitVec 6) : alphaInv (alpha v) = some v := by revert v; decide +kernel

/-- `ALPHA` undoes `ALPHA⁻¹`. -/
theorem alpha_of_alphaInv (c : Byte) (v : BitVec 6) (h : alphaInv c = some v) : alpha v = c := by
  have key : ∀ c : Byte, ∀ v, v ∈ alphaInv c → alpha v = c := by decide +kernel
  exact key c v h

/-- A group of four values is decoded to the bytes it was cut from. -/
theorem decodeGroup_slices (b0 b1 b2 : Byte) :
    let n : BitVec 24 := b0 ++ b1 ++ b2
    decodeGroup (n.extractLsb' 18 6) (n.extractLsb' 12 6) (n.extractLsb' 6 6) (n.extractLsb' 0 6) = [b0, b1, b2] := by
  intro n
  have hn : n.extractLsb' 18 6 ++ n.extractLsb' 12 6 ++ n.extractLsb' 6 6 ++ n.extractLsb' 0 6 = n := by
    apply BitVec.eq_of_getLsbD_eq
    intro i hi
    simp only [BitVec.getLsbD_append, BitVec.getLsbD_extractLsb']
    by_cases h0 : i < 6
    · simp [h0]
    · by_cases h1 : i < 12
      · simp [h0, show i - 6 < 6 by omega, show 6 + (i - 6) = i by omega]
      · by_cases h2 : i < 18
        · simp [h0, show ¬ i - 6 < 6 by omega, show i - 6 - 6 < 6 by omega, show 12 + (i - 6 - 6) = i by omega]
        · simp [h0, show ¬ i - 6 < 6 by omega, show ¬ i - 6 - 6 < 6 by omega, show i - 6 - 6 - 6 < 6 by omega,
            show 18 + (i - 6 - 6 - 6) = i by omega]
  have bits : ∀ i, n.getLsbD i =
      if i < 8 then b2.getLsbD i else if i < 16 then b1.getLsbD (i - 8) else b0.getLsbD (i - 16) := by
    intro i
    simp only [n, BitVec.getLsbD_append]
    by_cases h0 : i < 8
    · simp [h0]
    · by_cases h1 : i < 16
      · simp [h0, h1, show i - 8 < 8 by omega]
      · simp [h0, h1, show ¬ i - 8 < 8 by omega, show i - 8 - 8 = i - 16 by omega]
  simp only [decodeGroup, hn, List.cons.injEq, and_true]
  refine ⟨?_, ?_, ?_⟩ <;> apply BitVec.eq_of_getLsbD_eq <;> intro i hi <;>
    simp only [BitVec.getLsbD_extractLsb', bits, hi, decide_true, Bool.true_and]
  · simp [show ¬ 16 + i < 8 by omega, show ¬ 16 + i < 16 by omega]
  · simp [show ¬ 8 + i < 8 by omega, show 8 + i < 16 by omega]
  · simp [hi]

/-- The last byte is decoded from its two values. -/
theorem decodeTail_slices (b : Byte) : decodeTail (b.extractLsb' 2 6) (b.extractLsb' 0 2 ++ 0#4) = b := by
  revert b; decide +kernel

@[simp] theorem encodeGroup_length (b0 b1 b2 : Byte) : (encodeGroup b0 b1 b2).length = 4 := rfl

@[simp] theorem encodeTail_length (b : Byte) : (encodeTail b).length = 2 := rfl

/-- R191: the token text of any message has 38 characters. -/
@[simp] theorem b64uEnc_length (m : List Byte) : (b64uEnc m).length = 38 := by
  simp [b64uEnc, List.range, List.range.loop]

/-- R193: decoding gives 28 bytes. -/
@[simp] theorem b64uDec_length (c : List Byte) : (b64uDec c).length = 28 := by
  simp [b64uDec, decodeGroup, List.range, List.range.loop]

/-- Every character of a token text is in the alphabet. -/
theorem b64uEnc_alphabet (m : List Byte) (c : Byte) (h : c ∈ b64uEnc m) : ∃ v, c = alpha v := by
  simp only [b64uEnc, encodeGroup, encodeTail, List.mem_append, List.mem_flatMap, List.mem_cons] at h
  rcases h with ⟨g, _, h | h | h | h | h⟩ | h | h | h
  all_goals first | exact ⟨_, h⟩ | simp at h

@[simp] theorem State.tokenChars_length (s : State) : s.tokenChars.length = 38 := by
  simp [State.tokenChars, slice]

/-- What the decode checks (R195 to R197) can answer, and when. -/
theorem formatFailure_cases (s : State) :
    (s.tokenLen ≠ 38#32 ∧ formatFailure s = some formatLengthInfo) ∨
    (s.tokenLen = 38#32 ∧ ∃ j, firstBadChar s.tokenChars = some j ∧ j < 38 ∧
      formatFailure s = some (formatCharInfo j)) ∨
    (s.tokenLen = 38#32 ∧ firstBadChar s.tokenChars = none ∧ formatFailure s = none) := by
  have hlen : s.tokenLen.toNat = 38 ↔ s.tokenLen = 38#32 := by
    constructor
    · intro h; apply BitVec.eq_of_toNat_eq; simpa using h
    · intro h; simp [h]
  by_cases h : s.tokenLen = 38#32
  · have hn := hlen.mpr h
    cases hb : firstBadChar s.tokenChars with
    | none => exact .inr (.inr ⟨h, rfl, by simp [formatFailure, hn, hb]⟩)
    | some j =>
      refine .inr (.inl ⟨h, j, rfl, ?_, by simp [formatFailure, hn, hb]⟩)
      have := (List.findIdx?_eq_some_iff_findIdx_eq.mp hb).1
      simpa using this
  · exact .inl ⟨h, by simp [formatFailure, hlen, h]⟩

end Sys2Proof.Machine
end

