-- ==== Sys2Proof/Laws/Decode.lean ====
section
/-! SUPPORT. The opcode map is unambiguous (R83 30_encoding.md), and what the decoder can answer (R81). -/

namespace Sys2Proof

/-- No two rows of the opcode map share an opcode or a command. -/
theorem opcodeMap_rows_distinct : opcodeMap.Pairwise (fun a b => a.1 ≠ b.1 ∧ a.2 ≠ b.2) := by decide

/-- Every command stands in the map. -/
theorem opcodeMap_complete (i : Instr) : (opcodeOf i, i) ∈ opcodeMap := by cases i <;> decide

/-- What decoding a word can answer, and when. -/
theorem decodeWord_cases (w : Word) :
    (mbzField w ≠ 0#24 ∧ decodeWord w = .error .mbzNonzero) ∨
    (mbzField w = 0#24 ∧ instrOfOpcode (opcodeField w) = none ∧ decodeWord w = .error .opcodeNotMapped) ∨
    ∃ i, mbzField w = 0#24 ∧ instrOfOpcode (opcodeField w) = some i ∧ decodeWord w = .ok i := by
  by_cases h : mbzField w = 0#24
  · cases ho : instrOfOpcode (opcodeField w) with
    | none => exact .inr (.inl ⟨h, rfl, by simp [decodeWord, h, ho]⟩)
    | some i => exact .inr (.inr ⟨i, h, rfl, by simp [decodeWord, h, ho]⟩)
  · exact .inl ⟨h, by simp [decodeWord, h]⟩

/-- The two fields determine the word (R80). -/
theorem word_of_fields (w : Word) : mbzField w ++ opcodeField w = w := by
  apply BitVec.eq_of_getLsbD_eq
  intro i hi
  simp only [mbzField, opcodeField, BitVec.getLsbD_append, BitVec.getLsbD_extractLsb']
  by_cases h : i < 8
  · simp [h]
  · simp [h, show i - 8 < 24 by omega, show 8 + (i - 8) = i by omega]

end Sys2Proof
end

