-- ==== Sys2Proof/Laws/Registers.lean ====
section
/-! SUPPORT. The register map (R21 10_state.md): offsets and registers determine each other. -/

namespace Sys2Proof.Machine

/-- Every register stands at its own offset. -/
@[simp] theorem regAt_offset (r : Reg) : regAt r.offset = some r := by
  cases r with
  | ekey k => revert k; decide
  | ikey k => revert k; decide
  | iv k => revert k; decide
  | digest k => revert k; decide
  | token k => revert k; decide
  | _ => rfl

/-- Every register's offset is in the window and aligned, so its accesses are admitted (R61 20_memory.md). -/
theorem offset_admitted (r : Reg) : r.offset % 4 = 0 ∧ r.offset ≤ 0x0FC := by
  cases r with
  | ekey k => have := k.isLt; simp only [Reg.offset]; omega
  | ikey k => have := k.isLt; simp only [Reg.offset]; omega
  | iv k => have := k.isLt; simp only [Reg.offset]; omega
  | digest k => have := k.isLt; simp only [Reg.offset]; omega
  | token k => have := k.isLt; simp only [Reg.offset]; omega
  | _ => decide

/-- An aligned offset that holds a register is that register's offset. -/
theorem offset_of_regAt (off : Nat) (r : Reg) (ha : off % 4 = 0) (hw : off ≤ 0x0FC) (h : regAt off = some r) :
    off = r.offset := by
  have key : ∀ k, k < 64 → ∀ r, (registerSlots[k]?).join = some r → 4 * k = r.offset := by
    intro k hk
    interval_cases k <;> intro r hr <;> simp [registerSlots] at hr <;> subst hr <;> rfl
  have := key (off / 4) (by omega) r h
  omega

end Sys2Proof.Machine
end

