-- ==== Sys2Proof/Laws/State.lean ====
section
/-!
SUPPORT. One lemma per field per named update of the state, each true by rfl: no later proof unfolds a record
update.
-/

namespace Sys2Proof.Machine

variable (s : State)

section
variable (c : ResultCode) (x : Word)
@[simp] theorem State.complete_irqEn : (s.complete c x).irqEn = s.irqEn := rfl
@[simp] theorem State.complete_eng : (s.complete c x).eng = .idle := rfl
@[simp] theorem State.complete_done : (s.complete c x).done = true := rfl
@[simp] theorem State.complete_keysValid : (s.complete c x).keysValid = s.keysValid := rfl
@[simp] theorem State.complete_authOk : (s.complete c x).authOk = s.authOk := rfl
@[simp] theorem State.complete_ovr : (s.complete c x).ovr = s.ovr := rfl
@[simp] theorem State.complete_result : (s.complete c x).result = c.bits := rfl
@[simp] theorem State.complete_errInfo : (s.complete c x).errInfo = x := rfl
@[simp] theorem State.complete_ekeyLen : (s.complete c x).ekeyLen = s.ekeyLen := rfl
@[simp] theorem State.complete_ikeyLen : (s.complete c x).ikeyLen = s.ikeyLen := rfl
@[simp] theorem State.complete_ek : (s.complete c x).ek = s.ek := rfl
@[simp] theorem State.complete_ik : (s.complete c x).ik = s.ik := rfl
@[simp] theorem State.complete_timeSec : (s.complete c x).timeSec = s.timeSec := rfl
@[simp] theorem State.complete_timeUsec : (s.complete c x).timeUsec = s.timeUsec := rfl
@[simp] theorem State.complete_tsSec : (s.complete c x).tsSec = s.tsSec := rfl
@[simp] theorem State.complete_tsUsec : (s.complete c x).tsUsec = s.tsUsec := rfl
@[simp] theorem State.complete_priceHi : (s.complete c x).priceHi = s.priceHi := rfl
@[simp] theorem State.complete_priceLo : (s.complete c x).priceLo = s.priceLo := rfl
@[simp] theorem State.complete_encPriceHi : (s.complete c x).encPriceHi = s.encPriceHi := rfl
@[simp] theorem State.complete_encPriceLo : (s.complete c x).encPriceLo = s.encPriceLo := rfl
@[simp] theorem State.complete_iv : (s.complete c x).iv = s.iv := rfl
@[simp] theorem State.complete_sig : (s.complete c x).sig = s.sig := rfl
@[simp] theorem State.complete_sigCalc : (s.complete c x).sigCalc = s.sigCalc := rfl
@[simp] theorem State.complete_padHi : (s.complete c x).padHi = s.padHi := rfl
@[simp] theorem State.complete_padLo : (s.complete c x).padLo = s.padLo := rfl
@[simp] theorem State.complete_digest : (s.complete c x).digest = s.digest := rfl
@[simp] theorem State.complete_tokenLen : (s.complete c x).tokenLen = s.tokenLen := rfl
@[simp] theorem State.complete_token : (s.complete c x).token = s.token := rfl
@[simp] theorem State.complete_lag : (s.complete c x).lag = s.lag := rfl
@[simp] theorem State.complete_draws : (s.complete c x).draws = s.draws := rfl
@[simp] theorem State.complete_pending : (s.complete c x).pending = s.pending := rfl
@[simp] theorem State.complete_resp : (s.complete c x).resp = s.resp := rfl
end

section
variable (w : Word)
@[simp] theorem State.accept_irqEn : (s.accept w).irqEn = s.irqEn := rfl
@[simp] theorem State.accept_eng : (s.accept w).eng = .busy w := rfl
@[simp] theorem State.accept_done : (s.accept w).done = false := rfl
@[simp] theorem State.accept_keysValid : (s.accept w).keysValid = s.keysValid := rfl
@[simp] theorem State.accept_authOk : (s.accept w).authOk = s.authOk := rfl
@[simp] theorem State.accept_ovr : (s.accept w).ovr = s.ovr := rfl
@[simp] theorem State.accept_result : (s.accept w).result = s.result := rfl
@[simp] theorem State.accept_errInfo : (s.accept w).errInfo = s.errInfo := rfl
@[simp] theorem State.accept_ekeyLen : (s.accept w).ekeyLen = s.ekeyLen := rfl
@[simp] theorem State.accept_ikeyLen : (s.accept w).ikeyLen = s.ikeyLen := rfl
@[simp] theorem State.accept_ek : (s.accept w).ek = s.ek := rfl
@[simp] theorem State.accept_ik : (s.accept w).ik = s.ik := rfl
@[simp] theorem State.accept_timeSec : (s.accept w).timeSec = s.timeSec := rfl
@[simp] theorem State.accept_timeUsec : (s.accept w).timeUsec = s.timeUsec := rfl
@[simp] theorem State.accept_tsSec : (s.accept w).tsSec = s.tsSec := rfl
@[simp] theorem State.accept_tsUsec : (s.accept w).tsUsec = s.tsUsec := rfl
@[simp] theorem State.accept_priceHi : (s.accept w).priceHi = s.priceHi := rfl
@[simp] theorem State.accept_priceLo : (s.accept w).priceLo = s.priceLo := rfl
@[simp] theorem State.accept_encPriceHi : (s.accept w).encPriceHi = s.encPriceHi := rfl
@[simp] theorem State.accept_encPriceLo : (s.accept w).encPriceLo = s.encPriceLo := rfl
@[simp] theorem State.accept_iv : (s.accept w).iv = s.iv := rfl
@[simp] theorem State.accept_sig : (s.accept w).sig = s.sig := rfl
@[simp] theorem State.accept_sigCalc : (s.accept w).sigCalc = s.sigCalc := rfl
@[simp] theorem State.accept_padHi : (s.accept w).padHi = s.padHi := rfl
@[simp] theorem State.accept_padLo : (s.accept w).padLo = s.padLo := rfl
@[simp] theorem State.accept_digest : (s.accept w).digest = s.digest := rfl
@[simp] theorem State.accept_tokenLen : (s.accept w).tokenLen = s.tokenLen := rfl
@[simp] theorem State.accept_token : (s.accept w).token = s.token := rfl
@[simp] theorem State.accept_lag : (s.accept w).lag = Config.freeLag s.draws := rfl
@[simp] theorem State.accept_draws : (s.accept w).draws = s.draws + 1 := rfl
@[simp] theorem State.accept_pending : (s.accept w).pending = s.pending := rfl
@[simp] theorem State.accept_resp : (s.accept w).resp = s.resp := rfl
end

section
variable (w : Word)
@[simp] theorem State.placeCommand_irqEn : (s.placeCommand w).irqEn = s.irqEn := rfl
@[simp] theorem State.placeCommand_eng : (s.placeCommand w).eng = .busy w := rfl
@[simp] theorem State.placeCommand_done : (s.placeCommand w).done = false := rfl
@[simp] theorem State.placeCommand_keysValid : (s.placeCommand w).keysValid = s.keysValid := rfl
@[simp] theorem State.placeCommand_authOk : (s.placeCommand w).authOk = s.authOk := rfl
@[simp] theorem State.placeCommand_ovr : (s.placeCommand w).ovr = s.ovr := rfl
@[simp] theorem State.placeCommand_result : (s.placeCommand w).result = s.result := rfl
@[simp] theorem State.placeCommand_errInfo : (s.placeCommand w).errInfo = s.errInfo := rfl
@[simp] theorem State.placeCommand_ekeyLen : (s.placeCommand w).ekeyLen = s.ekeyLen := rfl
@[simp] theorem State.placeCommand_ikeyLen : (s.placeCommand w).ikeyLen = s.ikeyLen := rfl
@[simp] theorem State.placeCommand_ek : (s.placeCommand w).ek = s.ek := rfl
@[simp] theorem State.placeCommand_ik : (s.placeCommand w).ik = s.ik := rfl
@[simp] theorem State.placeCommand_timeSec : (s.placeCommand w).timeSec = s.timeSec := rfl
@[simp] theorem State.placeCommand_timeUsec : (s.placeCommand w).timeUsec = s.timeUsec := rfl
@[simp] theorem State.placeCommand_tsSec : (s.placeCommand w).tsSec = s.tsSec := rfl
@[simp] theorem State.placeCommand_tsUsec : (s.placeCommand w).tsUsec = s.tsUsec := rfl
@[simp] theorem State.placeCommand_priceHi : (s.placeCommand w).priceHi = s.priceHi := rfl
@[simp] theorem State.placeCommand_priceLo : (s.placeCommand w).priceLo = s.priceLo := rfl
@[simp] theorem State.placeCommand_encPriceHi : (s.placeCommand w).encPriceHi = s.encPriceHi := rfl
@[simp] theorem State.placeCommand_encPriceLo : (s.placeCommand w).encPriceLo = s.encPriceLo := rfl
@[simp] theorem State.placeCommand_iv : (s.placeCommand w).iv = s.iv := rfl
@[simp] theorem State.placeCommand_sig : (s.placeCommand w).sig = s.sig := rfl
@[simp] theorem State.placeCommand_sigCalc : (s.placeCommand w).sigCalc = s.sigCalc := rfl
@[simp] theorem State.placeCommand_padHi : (s.placeCommand w).padHi = s.padHi := rfl
@[simp] theorem State.placeCommand_padLo : (s.placeCommand w).padLo = s.padLo := rfl
@[simp] theorem State.placeCommand_digest : (s.placeCommand w).digest = s.digest := rfl
@[simp] theorem State.placeCommand_tokenLen : (s.placeCommand w).tokenLen = s.tokenLen := rfl
@[simp] theorem State.placeCommand_token : (s.placeCommand w).token = s.token := rfl
@[simp] theorem State.placeCommand_lag : (s.placeCommand w).lag = 0 := rfl
@[simp] theorem State.placeCommand_draws : (s.placeCommand w).draws = s.draws := rfl
@[simp] theorem State.placeCommand_pending : (s.placeCommand w).pending = s.pending := rfl
@[simp] theorem State.placeCommand_resp : (s.placeCommand w).resp = s.resp := rfl
end

section
@[simp] theorem State.acknowledge_irqEn : s.acknowledge.irqEn = s.irqEn := rfl
@[simp] theorem State.acknowledge_eng : s.acknowledge.eng = s.eng := rfl
@[simp] theorem State.acknowledge_done : s.acknowledge.done = false := rfl
@[simp] theorem State.acknowledge_keysValid : s.acknowledge.keysValid = s.keysValid := rfl
@[simp] theorem State.acknowledge_authOk : s.acknowledge.authOk = s.authOk := rfl
@[simp] theorem State.acknowledge_ovr : s.acknowledge.ovr = s.ovr := rfl
@[simp] theorem State.acknowledge_result : s.acknowledge.result = s.result := rfl
@[simp] theorem State.acknowledge_errInfo : s.acknowledge.errInfo = s.errInfo := rfl
@[simp] theorem State.acknowledge_ekeyLen : s.acknowledge.ekeyLen = s.ekeyLen := rfl
@[simp] theorem State.acknowledge_ikeyLen : s.acknowledge.ikeyLen = s.ikeyLen := rfl
@[simp] theorem State.acknowledge_ek : s.acknowledge.ek = s.ek := rfl
@[simp] theorem State.acknowledge_ik : s.acknowledge.ik = s.ik := rfl
@[simp] theorem State.acknowledge_timeSec : s.acknowledge.timeSec = s.timeSec := rfl
@[simp] theorem State.acknowledge_timeUsec : s.acknowledge.timeUsec = s.timeUsec := rfl
@[simp] theorem State.acknowledge_tsSec : s.acknowledge.tsSec = s.tsSec := rfl
@[simp] theorem State.acknowledge_tsUsec : s.acknowledge.tsUsec = s.tsUsec := rfl
@[simp] theorem State.acknowledge_priceHi : s.acknowledge.priceHi = s.priceHi := rfl
@[simp] theorem State.acknowledge_priceLo : s.acknowledge.priceLo = s.priceLo := rfl
@[simp] theorem State.acknowledge_encPriceHi : s.acknowledge.encPriceHi = s.encPriceHi := rfl
@[simp] theorem State.acknowledge_encPriceLo : s.acknowledge.encPriceLo = s.encPriceLo := rfl
@[simp] theorem State.acknowledge_iv : s.acknowledge.iv = s.iv := rfl
@[simp] theorem State.acknowledge_sig : s.acknowledge.sig = s.sig := rfl
@[simp] theorem State.acknowledge_sigCalc : s.acknowledge.sigCalc = s.sigCalc := rfl
@[simp] theorem State.acknowledge_padHi : s.acknowledge.padHi = s.padHi := rfl
@[simp] theorem State.acknowledge_padLo : s.acknowledge.padLo = s.padLo := rfl
@[simp] theorem State.acknowledge_digest : s.acknowledge.digest = s.digest := rfl
@[simp] theorem State.acknowledge_tokenLen : s.acknowledge.tokenLen = s.tokenLen := rfl
@[simp] theorem State.acknowledge_token : s.acknowledge.token = s.token := rfl
@[simp] theorem State.acknowledge_lag : s.acknowledge.lag = s.lag := rfl
@[simp] theorem State.acknowledge_draws : s.acknowledge.draws = s.draws := rfl
@[simp] theorem State.acknowledge_pending : s.acknowledge.pending = s.pending := rfl
@[simp] theorem State.acknowledge_resp : s.acknowledge.resp = s.resp := rfl
end

section
@[simp] theorem State.clearOvr_irqEn : s.clearOvr.irqEn = s.irqEn := rfl
@[simp] theorem State.clearOvr_eng : s.clearOvr.eng = s.eng := rfl
@[simp] theorem State.clearOvr_done : s.clearOvr.done = s.done := rfl
@[simp] theorem State.clearOvr_keysValid : s.clearOvr.keysValid = s.keysValid := rfl
@[simp] theorem State.clearOvr_authOk : s.clearOvr.authOk = s.authOk := rfl
@[simp] theorem State.clearOvr_ovr : s.clearOvr.ovr = false := rfl
@[simp] theorem State.clearOvr_result : s.clearOvr.result = s.result := rfl
@[simp] theorem State.clearOvr_errInfo : s.clearOvr.errInfo = s.errInfo := rfl
@[simp] theorem State.clearOvr_ekeyLen : s.clearOvr.ekeyLen = s.ekeyLen := rfl
@[simp] theorem State.clearOvr_ikeyLen : s.clearOvr.ikeyLen = s.ikeyLen := rfl
@[simp] theorem State.clearOvr_ek : s.clearOvr.ek = s.ek := rfl
@[simp] theorem State.clearOvr_ik : s.clearOvr.ik = s.ik := rfl
@[simp] theorem State.clearOvr_timeSec : s.clearOvr.timeSec = s.timeSec := rfl
@[simp] theorem State.clearOvr_timeUsec : s.clearOvr.timeUsec = s.timeUsec := rfl
@[simp] theorem State.clearOvr_tsSec : s.clearOvr.tsSec = s.tsSec := rfl
@[simp] theorem State.clearOvr_tsUsec : s.clearOvr.tsUsec = s.tsUsec := rfl
@[simp] theorem State.clearOvr_priceHi : s.clearOvr.priceHi = s.priceHi := rfl
@[simp] theorem State.clearOvr_priceLo : s.clearOvr.priceLo = s.priceLo := rfl
@[simp] theorem State.clearOvr_encPriceHi : s.clearOvr.encPriceHi = s.encPriceHi := rfl
@[simp] theorem State.clearOvr_encPriceLo : s.clearOvr.encPriceLo = s.encPriceLo := rfl
@[simp] theorem State.clearOvr_iv : s.clearOvr.iv = s.iv := rfl
@[simp] theorem State.clearOvr_sig : s.clearOvr.sig = s.sig := rfl
@[simp] theorem State.clearOvr_sigCalc : s.clearOvr.sigCalc = s.sigCalc := rfl
@[simp] theorem State.clearOvr_padHi : s.clearOvr.padHi = s.padHi := rfl
@[simp] theorem State.clearOvr_padLo : s.clearOvr.padLo = s.padLo := rfl
@[simp] theorem State.clearOvr_digest : s.clearOvr.digest = s.digest := rfl
@[simp] theorem State.clearOvr_tokenLen : s.clearOvr.tokenLen = s.tokenLen := rfl
@[simp] theorem State.clearOvr_token : s.clearOvr.token = s.token := rfl
@[simp] theorem State.clearOvr_lag : s.clearOvr.lag = s.lag := rfl
@[simp] theorem State.clearOvr_draws : s.clearOvr.draws = s.draws := rfl
@[simp] theorem State.clearOvr_pending : s.clearOvr.pending = s.pending := rfl
@[simp] theorem State.clearOvr_resp : s.clearOvr.resp = s.resp := rfl
end

section
@[simp] theorem State.dropWrite_irqEn : s.dropWrite.irqEn = s.irqEn := rfl
@[simp] theorem State.dropWrite_eng : s.dropWrite.eng = s.eng := rfl
@[simp] theorem State.dropWrite_done : s.dropWrite.done = s.done := rfl
@[simp] theorem State.dropWrite_keysValid : s.dropWrite.keysValid = s.keysValid := rfl
@[simp] theorem State.dropWrite_authOk : s.dropWrite.authOk = s.authOk := rfl
@[simp] theorem State.dropWrite_ovr : s.dropWrite.ovr = true := rfl
@[simp] theorem State.dropWrite_result : s.dropWrite.result = s.result := rfl
@[simp] theorem State.dropWrite_errInfo : s.dropWrite.errInfo = s.errInfo := rfl
@[simp] theorem State.dropWrite_ekeyLen : s.dropWrite.ekeyLen = s.ekeyLen := rfl
@[simp] theorem State.dropWrite_ikeyLen : s.dropWrite.ikeyLen = s.ikeyLen := rfl
@[simp] theorem State.dropWrite_ek : s.dropWrite.ek = s.ek := rfl
@[simp] theorem State.dropWrite_ik : s.dropWrite.ik = s.ik := rfl
@[simp] theorem State.dropWrite_timeSec : s.dropWrite.timeSec = s.timeSec := rfl
@[simp] theorem State.dropWrite_timeUsec : s.dropWrite.timeUsec = s.timeUsec := rfl
@[simp] theorem State.dropWrite_tsSec : s.dropWrite.tsSec = s.tsSec := rfl
@[simp] theorem State.dropWrite_tsUsec : s.dropWrite.tsUsec = s.tsUsec := rfl
@[simp] theorem State.dropWrite_priceHi : s.dropWrite.priceHi = s.priceHi := rfl
@[simp] theorem State.dropWrite_priceLo : s.dropWrite.priceLo = s.priceLo := rfl
@[simp] theorem State.dropWrite_encPriceHi : s.dropWrite.encPriceHi = s.encPriceHi := rfl
@[simp] theorem State.dropWrite_encPriceLo : s.dropWrite.encPriceLo = s.encPriceLo := rfl
@[simp] theorem State.dropWrite_iv : s.dropWrite.iv = s.iv := rfl
@[simp] theorem State.dropWrite_sig : s.dropWrite.sig = s.sig := rfl
@[simp] theorem State.dropWrite_sigCalc : s.dropWrite.sigCalc = s.sigCalc := rfl
@[simp] theorem State.dropWrite_padHi : s.dropWrite.padHi = s.padHi := rfl
@[simp] theorem State.dropWrite_padLo : s.dropWrite.padLo = s.padLo := rfl
@[simp] theorem State.dropWrite_digest : s.dropWrite.digest = s.digest := rfl
@[simp] theorem State.dropWrite_tokenLen : s.dropWrite.tokenLen = s.tokenLen := rfl
@[simp] theorem State.dropWrite_token : s.dropWrite.token = s.token := rfl
@[simp] theorem State.dropWrite_lag : s.dropWrite.lag = s.lag := rfl
@[simp] theorem State.dropWrite_draws : s.dropWrite.draws = s.draws := rfl
@[simp] theorem State.dropWrite_pending : s.dropWrite.pending = s.pending := rfl
@[simp] theorem State.dropWrite_resp : s.dropWrite.resp = s.resp := rfl
end

section
variable (v : List Byte)
@[simp] theorem State.setIv_irqEn : (s.setIv v).irqEn = s.irqEn := rfl
@[simp] theorem State.setIv_eng : (s.setIv v).eng = s.eng := rfl
@[simp] theorem State.setIv_done : (s.setIv v).done = s.done := rfl
@[simp] theorem State.setIv_keysValid : (s.setIv v).keysValid = s.keysValid := rfl
@[simp] theorem State.setIv_authOk : (s.setIv v).authOk = s.authOk := rfl
@[simp] theorem State.setIv_ovr : (s.setIv v).ovr = s.ovr := rfl
@[simp] theorem State.setIv_result : (s.setIv v).result = s.result := rfl
@[simp] theorem State.setIv_errInfo : (s.setIv v).errInfo = s.errInfo := rfl
@[simp] theorem State.setIv_ekeyLen : (s.setIv v).ekeyLen = s.ekeyLen := rfl
@[simp] theorem State.setIv_ikeyLen : (s.setIv v).ikeyLen = s.ikeyLen := rfl
@[simp] theorem State.setIv_ek : (s.setIv v).ek = s.ek := rfl
@[simp] theorem State.setIv_ik : (s.setIv v).ik = s.ik := rfl
@[simp] theorem State.setIv_timeSec : (s.setIv v).timeSec = s.timeSec := rfl
@[simp] theorem State.setIv_timeUsec : (s.setIv v).timeUsec = s.timeUsec := rfl
@[simp] theorem State.setIv_tsSec : (s.setIv v).tsSec = s.tsSec := rfl
@[simp] theorem State.setIv_tsUsec : (s.setIv v).tsUsec = s.tsUsec := rfl
@[simp] theorem State.setIv_priceHi : (s.setIv v).priceHi = s.priceHi := rfl
@[simp] theorem State.setIv_priceLo : (s.setIv v).priceLo = s.priceLo := rfl
@[simp] theorem State.setIv_encPriceHi : (s.setIv v).encPriceHi = s.encPriceHi := rfl
@[simp] theorem State.setIv_encPriceLo : (s.setIv v).encPriceLo = s.encPriceLo := rfl
@[simp] theorem State.setIv_iv : (s.setIv v).iv = words4 v := rfl
@[simp] theorem State.setIv_sig : (s.setIv v).sig = s.sig := rfl
@[simp] theorem State.setIv_sigCalc : (s.setIv v).sigCalc = s.sigCalc := rfl
@[simp] theorem State.setIv_padHi : (s.setIv v).padHi = s.padHi := rfl
@[simp] theorem State.setIv_padLo : (s.setIv v).padLo = s.padLo := rfl
@[simp] theorem State.setIv_digest : (s.setIv v).digest = s.digest := rfl
@[simp] theorem State.setIv_tokenLen : (s.setIv v).tokenLen = s.tokenLen := rfl
@[simp] theorem State.setIv_token : (s.setIv v).token = s.token := rfl
@[simp] theorem State.setIv_lag : (s.setIv v).lag = s.lag := rfl
@[simp] theorem State.setIv_draws : (s.setIv v).draws = s.draws := rfl
@[simp] theorem State.setIv_pending : (s.setIv v).pending = s.pending := rfl
@[simp] theorem State.setIv_resp : (s.setIv v).resp = s.resp := rfl
end

section
variable (v : List Byte)
@[simp] theorem State.setPrice_irqEn : (s.setPrice v).irqEn = s.irqEn := rfl
@[simp] theorem State.setPrice_eng : (s.setPrice v).eng = s.eng := rfl
@[simp] theorem State.setPrice_done : (s.setPrice v).done = s.done := rfl
@[simp] theorem State.setPrice_keysValid : (s.setPrice v).keysValid = s.keysValid := rfl
@[simp] theorem State.setPrice_authOk : (s.setPrice v).authOk = s.authOk := rfl
@[simp] theorem State.setPrice_ovr : (s.setPrice v).ovr = s.ovr := rfl
@[simp] theorem State.setPrice_result : (s.setPrice v).result = s.result := rfl
@[simp] theorem State.setPrice_errInfo : (s.setPrice v).errInfo = s.errInfo := rfl
@[simp] theorem State.setPrice_ekeyLen : (s.setPrice v).ekeyLen = s.ekeyLen := rfl
@[simp] theorem State.setPrice_ikeyLen : (s.setPrice v).ikeyLen = s.ikeyLen := rfl
@[simp] theorem State.setPrice_ek : (s.setPrice v).ek = s.ek := rfl
@[simp] theorem State.setPrice_ik : (s.setPrice v).ik = s.ik := rfl
@[simp] theorem State.setPrice_timeSec : (s.setPrice v).timeSec = s.timeSec := rfl
@[simp] theorem State.setPrice_timeUsec : (s.setPrice v).timeUsec = s.timeUsec := rfl
@[simp] theorem State.setPrice_tsSec : (s.setPrice v).tsSec = s.tsSec := rfl
@[simp] theorem State.setPrice_tsUsec : (s.setPrice v).tsUsec = s.tsUsec := rfl
@[simp] theorem State.setPrice_priceHi : (s.setPrice v).priceHi = wordAt v 0 := rfl
@[simp] theorem State.setPrice_priceLo : (s.setPrice v).priceLo = wordAt v 1 := rfl
@[simp] theorem State.setPrice_encPriceHi : (s.setPrice v).encPriceHi = s.encPriceHi := rfl
@[simp] theorem State.setPrice_encPriceLo : (s.setPrice v).encPriceLo = s.encPriceLo := rfl
@[simp] theorem State.setPrice_iv : (s.setPrice v).iv = s.iv := rfl
@[simp] theorem State.setPrice_sig : (s.setPrice v).sig = s.sig := rfl
@[simp] theorem State.setPrice_sigCalc : (s.setPrice v).sigCalc = s.sigCalc := rfl
@[simp] theorem State.setPrice_padHi : (s.setPrice v).padHi = s.padHi := rfl
@[simp] theorem State.setPrice_padLo : (s.setPrice v).padLo = s.padLo := rfl
@[simp] theorem State.setPrice_digest : (s.setPrice v).digest = s.digest := rfl
@[simp] theorem State.setPrice_tokenLen : (s.setPrice v).tokenLen = s.tokenLen := rfl
@[simp] theorem State.setPrice_token : (s.setPrice v).token = s.token := rfl
@[simp] theorem State.setPrice_lag : (s.setPrice v).lag = s.lag := rfl
@[simp] theorem State.setPrice_draws : (s.setPrice v).draws = s.draws := rfl
@[simp] theorem State.setPrice_pending : (s.setPrice v).pending = s.pending := rfl
@[simp] theorem State.setPrice_resp : (s.setPrice v).resp = s.resp := rfl
end

section
variable (v : List Byte)
@[simp] theorem State.setEnc_irqEn : (s.setEnc v).irqEn = s.irqEn := rfl
@[simp] theorem State.setEnc_eng : (s.setEnc v).eng = s.eng := rfl
@[simp] theorem State.setEnc_done : (s.setEnc v).done = s.done := rfl
@[simp] theorem State.setEnc_keysValid : (s.setEnc v).keysValid = s.keysValid := rfl
@[simp] theorem State.setEnc_authOk : (s.setEnc v).authOk = s.authOk := rfl
@[simp] theorem State.setEnc_ovr : (s.setEnc v).ovr = s.ovr := rfl
@[simp] theorem State.setEnc_result : (s.setEnc v).result = s.result := rfl
@[simp] theorem State.setEnc_errInfo : (s.setEnc v).errInfo = s.errInfo := rfl
@[simp] theorem State.setEnc_ekeyLen : (s.setEnc v).ekeyLen = s.ekeyLen := rfl
@[simp] theorem State.setEnc_ikeyLen : (s.setEnc v).ikeyLen = s.ikeyLen := rfl
@[simp] theorem State.setEnc_ek : (s.setEnc v).ek = s.ek := rfl
@[simp] theorem State.setEnc_ik : (s.setEnc v).ik = s.ik := rfl
@[simp] theorem State.setEnc_timeSec : (s.setEnc v).timeSec = s.timeSec := rfl
@[simp] theorem State.setEnc_timeUsec : (s.setEnc v).timeUsec = s.timeUsec := rfl
@[simp] theorem State.setEnc_tsSec : (s.setEnc v).tsSec = s.tsSec := rfl
@[simp] theorem State.setEnc_tsUsec : (s.setEnc v).tsUsec = s.tsUsec := rfl
@[simp] theorem State.setEnc_priceHi : (s.setEnc v).priceHi = s.priceHi := rfl
@[simp] theorem State.setEnc_priceLo : (s.setEnc v).priceLo = s.priceLo := rfl
@[simp] theorem State.setEnc_encPriceHi : (s.setEnc v).encPriceHi = wordAt v 0 := rfl
@[simp] theorem State.setEnc_encPriceLo : (s.setEnc v).encPriceLo = wordAt v 1 := rfl
@[simp] theorem State.setEnc_iv : (s.setEnc v).iv = s.iv := rfl
@[simp] theorem State.setEnc_sig : (s.setEnc v).sig = s.sig := rfl
@[simp] theorem State.setEnc_sigCalc : (s.setEnc v).sigCalc = s.sigCalc := rfl
@[simp] theorem State.setEnc_padHi : (s.setEnc v).padHi = s.padHi := rfl
@[simp] theorem State.setEnc_padLo : (s.setEnc v).padLo = s.padLo := rfl
@[simp] theorem State.setEnc_digest : (s.setEnc v).digest = s.digest := rfl
@[simp] theorem State.setEnc_tokenLen : (s.setEnc v).tokenLen = s.tokenLen := rfl
@[simp] theorem State.setEnc_token : (s.setEnc v).token = s.token := rfl
@[simp] theorem State.setEnc_lag : (s.setEnc v).lag = s.lag := rfl
@[simp] theorem State.setEnc_draws : (s.setEnc v).draws = s.draws := rfl
@[simp] theorem State.setEnc_pending : (s.setEnc v).pending = s.pending := rfl
@[simp] theorem State.setEnc_resp : (s.setEnc v).resp = s.resp := rfl
end

section
variable (v : List Byte)
@[simp] theorem State.setPad_irqEn : (s.setPad v).irqEn = s.irqEn := rfl
@[simp] theorem State.setPad_eng : (s.setPad v).eng = s.eng := rfl
@[simp] theorem State.setPad_done : (s.setPad v).done = s.done := rfl
@[simp] theorem State.setPad_keysValid : (s.setPad v).keysValid = s.keysValid := rfl
@[simp] theorem State.setPad_authOk : (s.setPad v).authOk = s.authOk := rfl
@[simp] theorem State.setPad_ovr : (s.setPad v).ovr = s.ovr := rfl
@[simp] theorem State.setPad_result : (s.setPad v).result = s.result := rfl
@[simp] theorem State.setPad_errInfo : (s.setPad v).errInfo = s.errInfo := rfl
@[simp] theorem State.setPad_ekeyLen : (s.setPad v).ekeyLen = s.ekeyLen := rfl
@[simp] theorem State.setPad_ikeyLen : (s.setPad v).ikeyLen = s.ikeyLen := rfl
@[simp] theorem State.setPad_ek : (s.setPad v).ek = s.ek := rfl
@[simp] theorem State.setPad_ik : (s.setPad v).ik = s.ik := rfl
@[simp] theorem State.setPad_timeSec : (s.setPad v).timeSec = s.timeSec := rfl
@[simp] theorem State.setPad_timeUsec : (s.setPad v).timeUsec = s.timeUsec := rfl
@[simp] theorem State.setPad_tsSec : (s.setPad v).tsSec = s.tsSec := rfl
@[simp] theorem State.setPad_tsUsec : (s.setPad v).tsUsec = s.tsUsec := rfl
@[simp] theorem State.setPad_priceHi : (s.setPad v).priceHi = s.priceHi := rfl
@[simp] theorem State.setPad_priceLo : (s.setPad v).priceLo = s.priceLo := rfl
@[simp] theorem State.setPad_encPriceHi : (s.setPad v).encPriceHi = s.encPriceHi := rfl
@[simp] theorem State.setPad_encPriceLo : (s.setPad v).encPriceLo = s.encPriceLo := rfl
@[simp] theorem State.setPad_iv : (s.setPad v).iv = s.iv := rfl
@[simp] theorem State.setPad_sig : (s.setPad v).sig = s.sig := rfl
@[simp] theorem State.setPad_sigCalc : (s.setPad v).sigCalc = s.sigCalc := rfl
@[simp] theorem State.setPad_padHi : (s.setPad v).padHi = wordAt v 0 := rfl
@[simp] theorem State.setPad_padLo : (s.setPad v).padLo = wordAt v 1 := rfl
@[simp] theorem State.setPad_digest : (s.setPad v).digest = s.digest := rfl
@[simp] theorem State.setPad_tokenLen : (s.setPad v).tokenLen = s.tokenLen := rfl
@[simp] theorem State.setPad_token : (s.setPad v).token = s.token := rfl
@[simp] theorem State.setPad_lag : (s.setPad v).lag = s.lag := rfl
@[simp] theorem State.setPad_draws : (s.setPad v).draws = s.draws := rfl
@[simp] theorem State.setPad_pending : (s.setPad v).pending = s.pending := rfl
@[simp] theorem State.setPad_resp : (s.setPad v).resp = s.resp := rfl
end

section
variable (v : List Byte)
@[simp] theorem State.setDigest_irqEn : (s.setDigest v).irqEn = s.irqEn := rfl
@[simp] theorem State.setDigest_eng : (s.setDigest v).eng = s.eng := rfl
@[simp] theorem State.setDigest_done : (s.setDigest v).done = s.done := rfl
@[simp] theorem State.setDigest_keysValid : (s.setDigest v).keysValid = s.keysValid := rfl
@[simp] theorem State.setDigest_authOk : (s.setDigest v).authOk = s.authOk := rfl
@[simp] theorem State.setDigest_ovr : (s.setDigest v).ovr = s.ovr := rfl
@[simp] theorem State.setDigest_result : (s.setDigest v).result = s.result := rfl
@[simp] theorem State.setDigest_errInfo : (s.setDigest v).errInfo = s.errInfo := rfl
@[simp] theorem State.setDigest_ekeyLen : (s.setDigest v).ekeyLen = s.ekeyLen := rfl
@[simp] theorem State.setDigest_ikeyLen : (s.setDigest v).ikeyLen = s.ikeyLen := rfl
@[simp] theorem State.setDigest_ek : (s.setDigest v).ek = s.ek := rfl
@[simp] theorem State.setDigest_ik : (s.setDigest v).ik = s.ik := rfl
@[simp] theorem State.setDigest_timeSec : (s.setDigest v).timeSec = s.timeSec := rfl
@[simp] theorem State.setDigest_timeUsec : (s.setDigest v).timeUsec = s.timeUsec := rfl
@[simp] theorem State.setDigest_tsSec : (s.setDigest v).tsSec = s.tsSec := rfl
@[simp] theorem State.setDigest_tsUsec : (s.setDigest v).tsUsec = s.tsUsec := rfl
@[simp] theorem State.setDigest_priceHi : (s.setDigest v).priceHi = s.priceHi := rfl
@[simp] theorem State.setDigest_priceLo : (s.setDigest v).priceLo = s.priceLo := rfl
@[simp] theorem State.setDigest_encPriceHi : (s.setDigest v).encPriceHi = s.encPriceHi := rfl
@[simp] theorem State.setDigest_encPriceLo : (s.setDigest v).encPriceLo = s.encPriceLo := rfl
@[simp] theorem State.setDigest_iv : (s.setDigest v).iv = s.iv := rfl
@[simp] theorem State.setDigest_sig : (s.setDigest v).sig = s.sig := rfl
@[simp] theorem State.setDigest_sigCalc : (s.setDigest v).sigCalc = s.sigCalc := rfl
@[simp] theorem State.setDigest_padHi : (s.setDigest v).padHi = s.padHi := rfl
@[simp] theorem State.setDigest_padLo : (s.setDigest v).padLo = s.padLo := rfl
@[simp] theorem State.setDigest_digest : (s.setDigest v).digest = words5 v := rfl
@[simp] theorem State.setDigest_tokenLen : (s.setDigest v).tokenLen = s.tokenLen := rfl
@[simp] theorem State.setDigest_token : (s.setDigest v).token = s.token := rfl
@[simp] theorem State.setDigest_lag : (s.setDigest v).lag = s.lag := rfl
@[simp] theorem State.setDigest_draws : (s.setDigest v).draws = s.draws := rfl
@[simp] theorem State.setDigest_pending : (s.setDigest v).pending = s.pending := rfl
@[simp] theorem State.setDigest_resp : (s.setDigest v).resp = s.resp := rfl
end

section
variable (v : List Byte)
@[simp] theorem State.setSig_irqEn : (s.setSig v).irqEn = s.irqEn := rfl
@[simp] theorem State.setSig_eng : (s.setSig v).eng = s.eng := rfl
@[simp] theorem State.setSig_done : (s.setSig v).done = s.done := rfl
@[simp] theorem State.setSig_keysValid : (s.setSig v).keysValid = s.keysValid := rfl
@[simp] theorem State.setSig_authOk : (s.setSig v).authOk = s.authOk := rfl
@[simp] theorem State.setSig_ovr : (s.setSig v).ovr = s.ovr := rfl
@[simp] theorem State.setSig_result : (s.setSig v).result = s.result := rfl
@[simp] theorem State.setSig_errInfo : (s.setSig v).errInfo = s.errInfo := rfl
@[simp] theorem State.setSig_ekeyLen : (s.setSig v).ekeyLen = s.ekeyLen := rfl
@[simp] theorem State.setSig_ikeyLen : (s.setSig v).ikeyLen = s.ikeyLen := rfl
@[simp] theorem State.setSig_ek : (s.setSig v).ek = s.ek := rfl
@[simp] theorem State.setSig_ik : (s.setSig v).ik = s.ik := rfl
@[simp] theorem State.setSig_timeSec : (s.setSig v).timeSec = s.timeSec := rfl
@[simp] theorem State.setSig_timeUsec : (s.setSig v).timeUsec = s.timeUsec := rfl
@[simp] theorem State.setSig_tsSec : (s.setSig v).tsSec = s.tsSec := rfl
@[simp] theorem State.setSig_tsUsec : (s.setSig v).tsUsec = s.tsUsec := rfl
@[simp] theorem State.setSig_priceHi : (s.setSig v).priceHi = s.priceHi := rfl
@[simp] theorem State.setSig_priceLo : (s.setSig v).priceLo = s.priceLo := rfl
@[simp] theorem State.setSig_encPriceHi : (s.setSig v).encPriceHi = s.encPriceHi := rfl
@[simp] theorem State.setSig_encPriceLo : (s.setSig v).encPriceLo = s.encPriceLo := rfl
@[simp] theorem State.setSig_iv : (s.setSig v).iv = s.iv := rfl
@[simp] theorem State.setSig_sig : (s.setSig v).sig = wordAt v 0 := rfl
@[simp] theorem State.setSig_sigCalc : (s.setSig v).sigCalc = s.sigCalc := rfl
@[simp] theorem State.setSig_padHi : (s.setSig v).padHi = s.padHi := rfl
@[simp] theorem State.setSig_padLo : (s.setSig v).padLo = s.padLo := rfl
@[simp] theorem State.setSig_digest : (s.setSig v).digest = s.digest := rfl
@[simp] theorem State.setSig_tokenLen : (s.setSig v).tokenLen = s.tokenLen := rfl
@[simp] theorem State.setSig_token : (s.setSig v).token = s.token := rfl
@[simp] theorem State.setSig_lag : (s.setSig v).lag = s.lag := rfl
@[simp] theorem State.setSig_draws : (s.setSig v).draws = s.draws := rfl
@[simp] theorem State.setSig_pending : (s.setSig v).pending = s.pending := rfl
@[simp] theorem State.setSig_resp : (s.setSig v).resp = s.resp := rfl
end

section
variable (v : List Byte)
@[simp] theorem State.setSigCalc_irqEn : (s.setSigCalc v).irqEn = s.irqEn := rfl
@[simp] theorem State.setSigCalc_eng : (s.setSigCalc v).eng = s.eng := rfl
@[simp] theorem State.setSigCalc_done : (s.setSigCalc v).done = s.done := rfl
@[simp] theorem State.setSigCalc_keysValid : (s.setSigCalc v).keysValid = s.keysValid := rfl
@[simp] theorem State.setSigCalc_authOk : (s.setSigCalc v).authOk = s.authOk := rfl
@[simp] theorem State.setSigCalc_ovr : (s.setSigCalc v).ovr = s.ovr := rfl
@[simp] theorem State.setSigCalc_result : (s.setSigCalc v).result = s.result := rfl
@[simp] theorem State.setSigCalc_errInfo : (s.setSigCalc v).errInfo = s.errInfo := rfl
@[simp] theorem State.setSigCalc_ekeyLen : (s.setSigCalc v).ekeyLen = s.ekeyLen := rfl
@[simp] theorem State.setSigCalc_ikeyLen : (s.setSigCalc v).ikeyLen = s.ikeyLen := rfl
@[simp] theorem State.setSigCalc_ek : (s.setSigCalc v).ek = s.ek := rfl
@[simp] theorem State.setSigCalc_ik : (s.setSigCalc v).ik = s.ik := rfl
@[simp] theorem State.setSigCalc_timeSec : (s.setSigCalc v).timeSec = s.timeSec := rfl
@[simp] theorem State.setSigCalc_timeUsec : (s.setSigCalc v).timeUsec = s.timeUsec := rfl
@[simp] theorem State.setSigCalc_tsSec : (s.setSigCalc v).tsSec = s.tsSec := rfl
@[simp] theorem State.setSigCalc_tsUsec : (s.setSigCalc v).tsUsec = s.tsUsec := rfl
@[simp] theorem State.setSigCalc_priceHi : (s.setSigCalc v).priceHi = s.priceHi := rfl
@[simp] theorem State.setSigCalc_priceLo : (s.setSigCalc v).priceLo = s.priceLo := rfl
@[simp] theorem State.setSigCalc_encPriceHi : (s.setSigCalc v).encPriceHi = s.encPriceHi := rfl
@[simp] theorem State.setSigCalc_encPriceLo : (s.setSigCalc v).encPriceLo = s.encPriceLo := rfl
@[simp] theorem State.setSigCalc_iv : (s.setSigCalc v).iv = s.iv := rfl
@[simp] theorem State.setSigCalc_sig : (s.setSigCalc v).sig = s.sig := rfl
@[simp] theorem State.setSigCalc_sigCalc : (s.setSigCalc v).sigCalc = wordAt v 0 := rfl
@[simp] theorem State.setSigCalc_padHi : (s.setSigCalc v).padHi = s.padHi := rfl
@[simp] theorem State.setSigCalc_padLo : (s.setSigCalc v).padLo = s.padLo := rfl
@[simp] theorem State.setSigCalc_digest : (s.setSigCalc v).digest = s.digest := rfl
@[simp] theorem State.setSigCalc_tokenLen : (s.setSigCalc v).tokenLen = s.tokenLen := rfl
@[simp] theorem State.setSigCalc_token : (s.setSigCalc v).token = s.token := rfl
@[simp] theorem State.setSigCalc_lag : (s.setSigCalc v).lag = s.lag := rfl
@[simp] theorem State.setSigCalc_draws : (s.setSigCalc v).draws = s.draws := rfl
@[simp] theorem State.setSigCalc_pending : (s.setSigCalc v).pending = s.pending := rfl
@[simp] theorem State.setSigCalc_resp : (s.setSigCalc v).resp = s.resp := rfl
end

section
variable (v : List Byte)
@[simp] theorem State.setToken_irqEn : (s.setToken v).irqEn = s.irqEn := rfl
@[simp] theorem State.setToken_eng : (s.setToken v).eng = s.eng := rfl
@[simp] theorem State.setToken_done : (s.setToken v).done = s.done := rfl
@[simp] theorem State.setToken_keysValid : (s.setToken v).keysValid = s.keysValid := rfl
@[simp] theorem State.setToken_authOk : (s.setToken v).authOk = s.authOk := rfl
@[simp] theorem State.setToken_ovr : (s.setToken v).ovr = s.ovr := rfl
@[simp] theorem State.setToken_result : (s.setToken v).result = s.result := rfl
@[simp] theorem State.setToken_errInfo : (s.setToken v).errInfo = s.errInfo := rfl
@[simp] theorem State.setToken_ekeyLen : (s.setToken v).ekeyLen = s.ekeyLen := rfl
@[simp] theorem State.setToken_ikeyLen : (s.setToken v).ikeyLen = s.ikeyLen := rfl
@[simp] theorem State.setToken_ek : (s.setToken v).ek = s.ek := rfl
@[simp] theorem State.setToken_ik : (s.setToken v).ik = s.ik := rfl
@[simp] theorem State.setToken_timeSec : (s.setToken v).timeSec = s.timeSec := rfl
@[simp] theorem State.setToken_timeUsec : (s.setToken v).timeUsec = s.timeUsec := rfl
@[simp] theorem State.setToken_tsSec : (s.setToken v).tsSec = s.tsSec := rfl
@[simp] theorem State.setToken_tsUsec : (s.setToken v).tsUsec = s.tsUsec := rfl
@[simp] theorem State.setToken_priceHi : (s.setToken v).priceHi = s.priceHi := rfl
@[simp] theorem State.setToken_priceLo : (s.setToken v).priceLo = s.priceLo := rfl
@[simp] theorem State.setToken_encPriceHi : (s.setToken v).encPriceHi = s.encPriceHi := rfl
@[simp] theorem State.setToken_encPriceLo : (s.setToken v).encPriceLo = s.encPriceLo := rfl
@[simp] theorem State.setToken_iv : (s.setToken v).iv = s.iv := rfl
@[simp] theorem State.setToken_sig : (s.setToken v).sig = s.sig := rfl
@[simp] theorem State.setToken_sigCalc : (s.setToken v).sigCalc = s.sigCalc := rfl
@[simp] theorem State.setToken_padHi : (s.setToken v).padHi = s.padHi := rfl
@[simp] theorem State.setToken_padLo : (s.setToken v).padLo = s.padLo := rfl
@[simp] theorem State.setToken_digest : (s.setToken v).digest = s.digest := rfl
@[simp] theorem State.setToken_tokenLen : (s.setToken v).tokenLen = 38#32 := rfl
@[simp] theorem State.setToken_token : (s.setToken v).token = words10 (v ++ [0x00#8, 0x00#8]) := rfl
@[simp] theorem State.setToken_lag : (s.setToken v).lag = s.lag := rfl
@[simp] theorem State.setToken_draws : (s.setToken v).draws = s.draws := rfl
@[simp] theorem State.setToken_pending : (s.setToken v).pending = s.pending := rfl
@[simp] theorem State.setToken_resp : (s.setToken v).resp = s.resp := rfl
end

section
variable (v : List Byte)
@[simp] theorem State.setTs_irqEn : (s.setTs v).irqEn = s.irqEn := rfl
@[simp] theorem State.setTs_eng : (s.setTs v).eng = s.eng := rfl
@[simp] theorem State.setTs_done : (s.setTs v).done = s.done := rfl
@[simp] theorem State.setTs_keysValid : (s.setTs v).keysValid = s.keysValid := rfl
@[simp] theorem State.setTs_authOk : (s.setTs v).authOk = s.authOk := rfl
@[simp] theorem State.setTs_ovr : (s.setTs v).ovr = s.ovr := rfl
@[simp] theorem State.setTs_result : (s.setTs v).result = s.result := rfl
@[simp] theorem State.setTs_errInfo : (s.setTs v).errInfo = s.errInfo := rfl
@[simp] theorem State.setTs_ekeyLen : (s.setTs v).ekeyLen = s.ekeyLen := rfl
@[simp] theorem State.setTs_ikeyLen : (s.setTs v).ikeyLen = s.ikeyLen := rfl
@[simp] theorem State.setTs_ek : (s.setTs v).ek = s.ek := rfl
@[simp] theorem State.setTs_ik : (s.setTs v).ik = s.ik := rfl
@[simp] theorem State.setTs_timeSec : (s.setTs v).timeSec = s.timeSec := rfl
@[simp] theorem State.setTs_timeUsec : (s.setTs v).timeUsec = s.timeUsec := rfl
@[simp] theorem State.setTs_tsSec : (s.setTs v).tsSec = wordAt v 0 := rfl
@[simp] theorem State.setTs_tsUsec : (s.setTs v).tsUsec = wordAt v 1 := rfl
@[simp] theorem State.setTs_priceHi : (s.setTs v).priceHi = s.priceHi := rfl
@[simp] theorem State.setTs_priceLo : (s.setTs v).priceLo = s.priceLo := rfl
@[simp] theorem State.setTs_encPriceHi : (s.setTs v).encPriceHi = s.encPriceHi := rfl
@[simp] theorem State.setTs_encPriceLo : (s.setTs v).encPriceLo = s.encPriceLo := rfl
@[simp] theorem State.setTs_iv : (s.setTs v).iv = s.iv := rfl
@[simp] theorem State.setTs_sig : (s.setTs v).sig = s.sig := rfl
@[simp] theorem State.setTs_sigCalc : (s.setTs v).sigCalc = s.sigCalc := rfl
@[simp] theorem State.setTs_padHi : (s.setTs v).padHi = s.padHi := rfl
@[simp] theorem State.setTs_padLo : (s.setTs v).padLo = s.padLo := rfl
@[simp] theorem State.setTs_digest : (s.setTs v).digest = s.digest := rfl
@[simp] theorem State.setTs_tokenLen : (s.setTs v).tokenLen = s.tokenLen := rfl
@[simp] theorem State.setTs_token : (s.setTs v).token = s.token := rfl
@[simp] theorem State.setTs_lag : (s.setTs v).lag = s.lag := rfl
@[simp] theorem State.setTs_draws : (s.setTs v).draws = s.draws := rfl
@[simp] theorem State.setTs_pending : (s.setTs v).pending = s.pending := rfl
@[simp] theorem State.setTs_resp : (s.setTs v).resp = s.resp := rfl
end

section
@[simp] theorem State.zeroized_irqEn : s.zeroized.irqEn = s.irqEn := rfl
@[simp] theorem State.zeroized_eng : s.zeroized.eng = s.eng := rfl
@[simp] theorem State.zeroized_done : s.zeroized.done = s.done := rfl
@[simp] theorem State.zeroized_keysValid : s.zeroized.keysValid = false := rfl
@[simp] theorem State.zeroized_authOk : s.zeroized.authOk = false := rfl
@[simp] theorem State.zeroized_ovr : s.zeroized.ovr = s.ovr := rfl
@[simp] theorem State.zeroized_result : s.zeroized.result = s.result := rfl
@[simp] theorem State.zeroized_errInfo : s.zeroized.errInfo = s.errInfo := rfl
@[simp] theorem State.zeroized_ekeyLen : s.zeroized.ekeyLen = 0#32 := rfl
@[simp] theorem State.zeroized_ikeyLen : s.zeroized.ikeyLen = 0#32 := rfl
@[simp] theorem State.zeroized_ek : s.zeroized.ek = Vector.replicate 8 0#32 := rfl
@[simp] theorem State.zeroized_ik : s.zeroized.ik = Vector.replicate 8 0#32 := rfl
@[simp] theorem State.zeroized_timeSec : s.zeroized.timeSec = s.timeSec := rfl
@[simp] theorem State.zeroized_timeUsec : s.zeroized.timeUsec = s.timeUsec := rfl
@[simp] theorem State.zeroized_tsSec : s.zeroized.tsSec = s.tsSec := rfl
@[simp] theorem State.zeroized_tsUsec : s.zeroized.tsUsec = s.tsUsec := rfl
@[simp] theorem State.zeroized_priceHi : s.zeroized.priceHi = s.priceHi := rfl
@[simp] theorem State.zeroized_priceLo : s.zeroized.priceLo = s.priceLo := rfl
@[simp] theorem State.zeroized_encPriceHi : s.zeroized.encPriceHi = s.encPriceHi := rfl
@[simp] theorem State.zeroized_encPriceLo : s.zeroized.encPriceLo = s.encPriceLo := rfl
@[simp] theorem State.zeroized_iv : s.zeroized.iv = s.iv := rfl
@[simp] theorem State.zeroized_sig : s.zeroized.sig = s.sig := rfl
@[simp] theorem State.zeroized_sigCalc : s.zeroized.sigCalc = 0#32 := rfl
@[simp] theorem State.zeroized_padHi : s.zeroized.padHi = 0#32 := rfl
@[simp] theorem State.zeroized_padLo : s.zeroized.padLo = 0#32 := rfl
@[simp] theorem State.zeroized_digest : s.zeroized.digest = Vector.replicate 5 0#32 := rfl
@[simp] theorem State.zeroized_tokenLen : s.zeroized.tokenLen = s.tokenLen := rfl
@[simp] theorem State.zeroized_token : s.zeroized.token = s.token := rfl
@[simp] theorem State.zeroized_lag : s.zeroized.lag = s.lag := rfl
@[simp] theorem State.zeroized_draws : s.zeroized.draws = s.draws := rfl
@[simp] theorem State.zeroized_pending : s.zeroized.pending = s.pending := rfl
@[simp] theorem State.zeroized_resp : s.zeroized.resp = s.resp := rfl
end

/-! The busy view of the updates that move the engine. -/

@[simp] theorem State.complete_busy (c : ResultCode) (x : Word) : (s.complete c x).busy = false := rfl
@[simp] theorem State.accept_busy (w : Word) : (s.accept w).busy = true := rfl
@[simp] theorem State.placeCommand_busy (w : Word) : (s.placeCommand w).busy = true := rfl

theorem State.busy_iff : s.busy = true ↔ ∃ w, s.eng = .busy w := by
  cases h : s.eng <;> simp [State.busy, h]

theorem State.not_busy_iff : s.busy = false ↔ s.eng = .idle := by
  cases h : s.eng <;> simp [State.busy, h]

@[simp] theorem State.resetBlock_eq :
    s.resetBlock = { State.reset with pending := s.pending, draws := s.draws } := rfl

end Sys2Proof.Machine
end

