-- ==== Sys2Proof/Laws/Ops.lean ====
section
/-!
SUPPORT. One lemma for each shared operation that says once everything it can do; the proofs cite these instead of
unfolding the operations.
-/

namespace Sys2Proof.Machine

@[simp] theorem finish_eq (c : ResultCode) (x : Word) (s : State) : finish c x s = .next (s.complete c x) := rfl

@[simp] theorem raise_eq (c : ResultCode) (x : Word) (s : State) : raise c x s = .next (s.complete c x) := rfl

/-- The key gate passes on committed keys. -/
theorem keyGate_valid (b : Bool) (s : State) (k : State → Host.Outcome State Fault Refusal)
    (h : s.keysValid = true) : keyGate b s k = k s := by simp [keyGate, h]

/-- The key gate stops without committed keys (R103 40_control.md). -/
theorem keyGate_invalid (b : Bool) (s : State) (k : State → Host.Outcome State Fault Refusal)
    (h : s.keysValid = false) :
    keyGate b s k =
      .next { s with
        result := ResultCode.noKeys.bits, errInfo := 0#32, done := true, eng := .idle,
        authOk := if b then false else s.authOk } := by
  cases b <;> simp [keyGate, h, State.complete]

/-- What an admitted write can do to the block (R273, R40, R61). -/
theorem writeEffect_cases (off : Nat) (v : Word) (s : State) :
    (s.busy = true ∧ regAt off ≠ some .ctrl ∧ regAt off ≠ some .status ∧ writeEffect off v s = s.dropWrite) ∨
    (s.busy = false ∧ regAt off = none ∧ writeEffect off v s = s) ∨
    ∃ r, regAt off = some r ∧ (s.busy = false ∨ r = .ctrl ∨ r = .status) ∧ writeEffect off v s = writeReg r v s := by
  cases hb : s.busy with
  | false =>
    cases hr : regAt off with
    | none => exact .inr (.inl ⟨rfl, rfl, by simp [writeEffect, hb, hr]⟩)
    | some r => exact .inr (.inr ⟨r, rfl, .inl rfl, by simp [writeEffect, hb, hr]⟩)
  | true =>
    by_cases hc : regAt off = some .ctrl
    · exact .inr (.inr ⟨_, hc, .inr (.inl rfl), by simp [writeEffect, hb, hc, writableWhileBusy]⟩)
    · by_cases hs : regAt off = some .status
      · exact .inr (.inr ⟨_, hs, .inr (.inr rfl), by simp [writeEffect, hb, hs, writableWhileBusy]⟩)
      · refine .inl ⟨rfl, hc, hs, ?_⟩
        have : writableWhileBusy (regAt off) = false := by
          unfold writableWhileBusy
          split <;> simp_all
        simp [writeEffect, hb, this]

/-- What a write transaction in the window can do: a bus error, or the admitted write (R61, R62). -/
theorem memWrite_cases (off width : Nat) (v : Word) (s : State) :
    ((width ≠ 4 ∨ off % 4 ≠ 0 ∨ 0x0FC < off) ∧ memWrite off width v s = { s with resp := .busError 0#32 }) ∨
    (width = 4 ∧ off % 4 = 0 ∧ off ≤ 0x0FC ∧
      memWrite off width v s = { writeEffect off v s with resp := .writeDone }) := by
  by_cases h : width = 4 ∧ off % 4 = 0 ∧ off ≤ 0x0FC
  · exact .inr ⟨h.1, h.2.1, h.2.2, by simp [memWrite, admitted, admittedWrite, h]⟩
  · refine .inl ⟨by omega, ?_⟩
    have : admitted off width = false := by
      simp only [admitted, Bool.and_eq_false_iff, beq_eq_false_iff_ne, decide_eq_false_iff_not, ne_eq]
      omega
    simp [memWrite, this]

/-- What a read transaction in the window can do: a bus error, a reserved offset's 0, a free value, or the
register's value (R61, R62, R274). -/
theorem memRead_cases (off width : Nat) (s : State) :
    ((width ≠ 4 ∨ off % 4 ≠ 0 ∨ 0x0FC < off) ∧ memRead off width s = { s with resp := .busError 0#32 }) ∨
    (width = 4 ∧ off % 4 = 0 ∧ off ≤ 0x0FC ∧
      ((regAt off = none ∧ memRead off width s = { s with resp := .readData 0#32 }) ∨
       ∃ r, regAt off = some r ∧
        ((readIsFree r s = true ∧
          memRead off width s = { s with resp := .readData (Config.freeWord s.draws), draws := s.draws + 1 }) ∨
         (readIsFree r s = false ∧ memRead off width s = { s with resp := .readData (readReg r s) })))) := by
  by_cases h : width = 4 ∧ off % 4 = 0 ∧ off ≤ 0x0FC
  · refine .inr ⟨h.1, h.2.1, h.2.2, ?_⟩
    cases hr : regAt off with
    | none => exact .inl ⟨rfl, by simp [memRead, admitted, admittedRead, h, hr]⟩
    | some r =>
      cases hf : readIsFree r s with
      | true => exact .inr ⟨r, rfl, .inl ⟨hf, by simp [memRead, admitted, admittedRead, h, hr, hf]⟩⟩
      | false => exact .inr ⟨r, rfl, .inr ⟨hf, by simp [memRead, admitted, admittedRead, h, hr, hf]⟩⟩
  · refine .inl ⟨by omega, ?_⟩
    have : admitted off width = false := by
      simp only [admitted, Bool.and_eq_false_iff, beq_eq_false_iff_ne, decide_eq_false_iff_not, ne_eq]
      omega
    simp [memRead, this]

/-- A read transaction touches the model's own response and draw count only (R64 20_memory.md). -/
theorem memRead_frame (off width : Nat) (s : State) :
    ∃ a n, memRead off width s = { s with resp := a, draws := n } := by
  rcases memRead_cases off width s with ⟨_, h⟩ | ⟨_, _, _, ⟨_, h⟩ | ⟨r, _, ⟨_, h⟩ | ⟨_, h⟩⟩⟩
  · exact ⟨_, s.draws, h⟩
  · exact ⟨_, s.draws, h⟩
  · exact ⟨_, _, h⟩
  · exact ⟨_, s.draws, h⟩

/-- The window begins at BASE_ADDR. -/
@[simp] theorem windowOffset_base (off : Nat) (h : off ≤ 0x0FF) : windowOffset (Config.baseAddr + off) = some off := by
  simp [windowOffset, h]

/-- An address in the window is BASE_ADDR plus its offset. -/
theorem windowOffset_some (addr off : Nat) (h : windowOffset addr = some off) :
    addr = Config.baseAddr + off ∧ off ≤ 0x0FF := by
  unfold windowOffset at h
  split at h
  · simp only [Option.some.injEq] at h; omega
  · simp at h

/-- What a host transaction can do. -/
theorem busTransaction_cases (b : BusTxn) (s : State) :
    (∃ off width, off ≤ 0x0FF ∧ b = .read (Config.baseAddr + off) width ∧
      busTransaction b s = .next (memRead off width s)) ∨
    (∃ off width v, off ≤ 0x0FF ∧ b = .write (Config.baseAddr + off) width v ∧
      busTransaction b s = .next (memWrite off width v s)) ∨
    ∃ addr, busTransaction b s = .fault (.outsideWindow addr) := by
  cases b with
  | read addr width =>
    cases hw : windowOffset addr with
    | none => exact .inr (.inr ⟨addr, by simp [busTransaction, hw]⟩)
    | some off =>
      obtain ⟨rfl, ho⟩ := windowOffset_some addr off hw
      exact .inl ⟨off, width, ho, rfl, by simp [busTransaction, ho]⟩
  | write addr width v =>
    cases hw : windowOffset addr with
    | none => exact .inr (.inr ⟨addr, by simp [busTransaction, hw]⟩)
    | some off =>
      obtain ⟨rfl, ho⟩ := windowOffset_some addr off hw
      exact .inr (.inl ⟨off, width, v, ho, rfl, by simp [busTransaction, ho]⟩)

/-- What a step to a next state can be: the engine's completion of a legal or an illegal word, an idle block with
no input, a host read or write, one read of WAIT's loop, or a reset. -/
theorem step_cases (s t : State) (h : step s = .next t) :
    (engineTurn s = true ∧ ∃ w, s.eng = .busy w ∧
      ((∃ i, decodeWord w = .ok i ∧ exec i s = .next t) ∨
       ((∃ e, decodeWord w = .error e) ∧ t = s.complete .illegalCmd w))) ∨
    (engineTurn s = false ∧
      ((s.pending = [] ∧ t = s) ∨
       ∃ inp rest s', s.pending = inp :: rest ∧ s' = { s with pending := rest, lag := s.lag - 1 } ∧
        ((∃ off width, off ≤ 0x0FF ∧ inp = .bus (.read (Config.baseAddr + off) width) ∧
            t = memRead off width s') ∨
         (∃ off width v, off ≤ 0x0FF ∧ inp = .bus (.write (Config.baseAddr + off) width v) ∧
            t = memWrite off width v s') ∨
         (inp = .wait ∧ t = waitStatus s') ∨
         ∃ lost, inp = .reset lost ∧ t = s'.resetBlock))) := by
  cases he : engineTurn s with
  | true =>
    refine .inl ⟨rfl, ?_⟩
    have hb : s.busy = true := by simp only [engineTurn, Bool.and_eq_true] at he; exact he.1
    obtain ⟨w, hw⟩ := s.busy_iff.mp hb
    refine ⟨w, hw, ?_⟩
    simp only [step, he, if_true, runEngine, hw] at h
    cases hd : decodeWord w with
    | ok i => exact .inl ⟨i, rfl, by simpa [hd] using h⟩
    | error e =>
      refine .inr ⟨⟨e, rfl⟩, ?_⟩
      simp [hd, illegalCommand] at h
      exact h.symm
  | false =>
    refine .inr ⟨rfl, ?_⟩
    simp only [step, he, runHost] at h
    cases hp : s.pending with
    | nil => simp [hp] at h; exact .inl ⟨rfl, h.symm⟩
    | cons inp rest =>
      refine .inr ⟨inp, rest, _, rfl, rfl, ?_⟩
      simp only [hp] at h
      cases inp with
      | bus b =>
        rcases busTransaction_cases b { s with pending := rest, lag := s.lag - 1 } with
          ⟨off, width, ho, rfl, hr⟩ | ⟨off, width, v, ho, rfl, hr⟩ | ⟨a, hr⟩
        · simp [takeInput, hr] at h; exact .inl ⟨off, width, ho, rfl, h.symm⟩
        · simp [takeInput, hr] at h; exact .inr (.inl ⟨off, width, v, ho, rfl, h.symm⟩)
        · simp [takeInput, hr] at h
      | wait => simp [takeInput] at h; exact .inr (.inr (.inl ⟨rfl, h.symm⟩))
      | reset lost =>
        simp [takeInput] at h
        exact .inr (.inr (.inr ⟨lost, rfl, by simp [← h]⟩))

/-- One read of WAIT's loop touches the model's own fields only. -/
theorem waitStatus_frame (s : State) :
    ∃ a n p, waitStatus s = { s with resp := a, draws := n, pending := p } := by
  obtain ⟨a, n, h⟩ := memRead_frame Reg.status.offset 4 s
  cases hb : s.busy
  · exact ⟨a, n, s.pending, by simp [waitStatus, h, hb]⟩
  · exact ⟨a, n, .wait :: s.pending, by simp [waitStatus, h, hb]⟩

/-- A host write to STATUS, by the two fields it can clear (R25 10_state.md). -/
theorem writeStatus_eq (v : Word) (s : State) :
    s.writeStatus v = { s with done := s.done && !v.getLsbD 1, ovr := s.ovr && !v.getLsbD 4 } := by
  unfold State.writeStatus
  cases v.getLsbD 1 <;> cases v.getLsbD 4 <;> simp [State.acknowledge, State.clearOvr]

/-- An aligned word of the window is admitted (R61). -/
theorem admitted_word (off : Nat) (h1 : off % 4 = 0) (h2 : off ≤ 0x0FC) : admitted off 4 = true := by
  simp [admitted, h1, h2]

/-- A misaligned transaction or one of another width is not (R62). -/
theorem not_admitted {off width : Nat} (h : width ≠ 4 ∨ off % 4 ≠ 0) : admitted off width = false := by
  simp only [admitted, Bool.and_eq_false_iff, beq_eq_false_iff_ne, decide_eq_false_iff_not, ne_eq]
  omega

/-- A write to a register of an idle block. -/
theorem memWrite_register (r : Reg) (v : Word) (s : State) (h : s.eng = .idle) :
    memWrite r.offset 4 v s = { writeReg r v s with resp := .writeDone } := by
  simp [memWrite, admitted_word _ (offset_admitted r).1 (offset_admitted r).2, admittedWrite, writeEffect, State.busy, h]

/-- A read of a register. -/
theorem memRead_register (r : Reg) (s : State) :
    memRead r.offset 4 s =
      if readIsFree r s then { s with resp := .readData (Config.freeWord s.draws), draws := s.draws + 1 }
      else { s with resp := .readData (readReg r s) } := by
  simp [memRead, admitted_word _ (offset_admitted r).1 (offset_admitted r).2, admittedRead]

/-- No register shows the key bytes (R28 10_state.md). -/
theorem readReg_keys (r : Reg) (s : State) (a b : Vector Word 8) :
    readReg r { s with ek := a, ik := b } = readReg r s := by
  cases r <;> rfl

end Sys2Proof.Machine
end

