-- ==== Sys2Proof/Laws/PerInstr.lean ====
section
/-!
SUPPORT. Per-command families: `EncodingLegal`, the encoding of every command is a word that R84's list of illegal
encodings (30_encoding.md) leaves legal, with MBZ zero.
-/

namespace Sys2Proof.Laws.EncodingLegal

/-- The encoding of `i` has MBZ zero, is legal by R84, and its OPCODE field is the map's. -/
def Statement (i : Instr) : Prop :=
  mbzField (encode i) = 0#24 ∧ legalWord (encode i) = true ∧ opcodeField (encode i) = opcodeOf i

theorem nop : Statement .nop := by unfold Statement; decide
theorem commitKeys : Statement .commitKeys := by unfold Statement; decide
theorem zeroize : Statement .zeroize := by unfold Statement; decide
theorem timeEnc : Statement .timeEnc := by unfold Statement; decide
theorem timeDec : Statement .timeDec := by unfold Statement; decide
theorem hmacPad : Statement .hmacPad := by unfold Statement; decide
theorem sigGen : Statement .sigGen := by unfold Statement; decide
theorem sigChk : Statement .sigChk := by unfold Statement; decide
theorem xorMask : Statement .xorMask := by unfold Statement; decide
theorem xorUnmask : Statement .xorUnmask := by unfold Statement; decide
theorem b64Enc : Statement .b64Enc := by unfold Statement; decide
theorem b64Dec : Statement .b64Dec := by unfold Statement; decide
theorem encodeToken : Statement .encodeToken := by unfold Statement; decide
theorem decodeToken : Statement .decodeToken := by unfold Statement; decide

end Sys2Proof.Laws.EncodingLegal
end

