-- ==== Sys2Proof/Laws/Sha1.lean ====
section
/-! SUPPORT. The sizes of SHA-1's and HMAC's strings (R141, R142, R148, R151 42_hmac_sha1.md). -/

namespace Sys2Proof.Machine

/-- R148: SHA-1 gives 20 bytes, whatever the message. -/
@[simp] theorem sha1_length (m : List Byte) : (sha1 m).length = 20 := by simp [sha1]

/-- R151: HMAC-SHA1 gives 20 bytes. -/
@[simp] theorem hmacSha1_length (key msg : List Byte) : (hmacSha1 key msg).length = 20 := by simp [hmacSha1]

theorem hmacKeyBlock_length (key : List Byte) (h : key.length ≤ 64) : (hmacKeyBlock key).length = 64 := by
  simp [hmacKeyBlock]; omega

theorem extendSchedule_length (n : Nat) (ws : List Word) : (extendSchedule n ws).length = ws.length + n := by
  induction n generalizing ws with
  | zero => rfl
  | succ n ih => simp only [extendSchedule, ih, List.length_cons]; omega

/-- R146: a block of 16 words has a schedule of 80. -/
theorem schedule_length (block : List Word) (h : block.length = 16) : (schedule block).length = 80 := by
  simp [schedule, extendSchedule_length, h]

/-- Extending the schedule puts words in front of those there are. -/
theorem extendSchedule_suffix (n : Nat) (ws : List Word) : ∃ p, extendSchedule n ws = p ++ ws := by
  induction n generalizing ws with
  | zero => exact ⟨[], rfl⟩
  | succ n ih =>
    obtain ⟨p, hp⟩ := ih (rotl 1 (ws.getD 2 0#32 ^^^ ws.getD 7 0#32 ^^^ ws.getD 13 0#32 ^^^ ws.getD 15 0#32) :: ws)
    exact ⟨p ++ [_], by rw [extendSchedule, hp, List.append_assoc]; rfl⟩

end Sys2Proof.Machine
end

