-- ==== Sys2Proof/Laws/Token.lean ====
section
/-!
SUPPORT. The time sample, the codec and the token buffer together: what ENCODE, DECODE and the codec commands are
proved from (41_timestamp.md, 44_base64.md, 45_token.md).
-/

namespace Sys2Proof.Machine

@[simp] theorem State.timeIv_length (s : State) : s.timeIv.length = 16 := by simp [State.timeIv]

/-- The words of the time sample's IV (R121). -/
theorem words4_timeIv (s : State) : words4 s.timeIv = #v[s.timeSec, s.timeUsec, s.timeSec, s.timeUsec] := by
  have h := wordAt_beBytes [s.timeSec, s.timeUsec, s.timeSec, s.timeUsec]
  have h0 := h 0 (by simp)
  have h1 := h 1 (by simp)
  have h2 := h 2 (by simp)
  have h3 := h 3 (by simp)
  have hb : s.timeIv = beBytes [s.timeSec, s.timeUsec, s.timeSec, s.timeUsec] := by simp [State.timeIv]
  rw [hb]
  unfold words4
  simp only [h0, h1, h2, h3]
  rfl

/-- The range check of TIME_USEC (R121). -/
theorem usecOutOfRange_iff (s : State) : s.usecOutOfRange = true ↔ 999999 < s.timeUsec.toNat := by
  simp [State.usecOutOfRange]

/-- The characters of a group in the token text. -/
theorem flatMap_range_getD (k : Nat) (f : Nat → List Byte) (hf : ∀ g, (f g).length = k) (rest : List Byte)
    (n g i : Nat) (d : Byte) (hg : g < n) (hi : i < k) :
    ((List.range n).flatMap f ++ rest).getD (k * g + i) d = (f g).getD i d := by
  induction n generalizing f g with
  | zero => omega
  | succ n ih =>
    rw [List.range_succ_eq_map, List.flatMap_cons, List.flatMap_map, List.append_assoc]
    cases g with
    | zero =>
      rw [List.getD_append _ _ _ _ (by rw [hf]; omega)]; simp
    | succ g =>
      have hk : k * (g + 1) = k * g + k := by rw [Nat.mul_succ]
      rw [List.getD_append_right _ _ _ _ (by rw [hf]; omega), hf, show k * (g + 1) + i - k = k * g + i by omega]
      exact ih (fun x => f x.succ) (fun x => hf _) g (by omega)

/-- A 28-byte message by groups of three and the last byte (R191). -/
theorem message_groups (m : List Byte) (h : m.length = 28) :
    (List.range 9).flatMap (fun g => [m.getD (3 * g) 0#8, m.getD (3 * g + 1) 0#8, m.getD (3 * g + 2) 0#8]) ++
      [m.getD 27 0#8] = m := by
  apply List.ext_getElem
  · simp [h, List.range, List.range.loop]
  · intro i h1 h2
    have : i < 28 := by omega
    interval_cases i <;>
      simp [List.range, List.range.loop, List.getD_eq_getElem?_getD, h]

/-- Decoding undoes encoding on every 28-byte message (R191, R193). -/
theorem b64uDec_b64uEnc (m : List Byte) (h : m.length = 28) : b64uDec (b64uEnc m) = m := by
  conv_rhs => rw [← message_groups m h]
  unfold b64uDec
  have hg : ∀ g, g < 9 →
      decodeGroup (charValue (b64uEnc m) (4 * g)) (charValue (b64uEnc m) (4 * g + 1))
        (charValue (b64uEnc m) (4 * g + 2)) (charValue (b64uEnc m) (4 * g + 3)) =
      [m.getD (3 * g) 0#8, m.getD (3 * g + 1) 0#8, m.getD (3 * g + 2) 0#8] := by
    intro g hg
    have e : ∀ i, i < 4 → (b64uEnc m).getD (4 * g + i) 0x41#8 = _ := fun i hi =>
      flatMap_range_getD 4 _ (fun _ => rfl) _ 9 g i _ hg hi
    have e0 := e 0 (by omega)
    rw [Nat.add_zero] at e0
    simp only [charValue, e0, e 1 (by omega), e 2 (by omega), e 3 (by omega)]
    simp only [encodeGroup, List.getD_cons_zero, List.getD_cons_succ, alphaInv_alpha, Option.getD_some]
    exact decodeGroup_slices _ _ _
  congr 1
  · rw [List.flatMap_congr]
    intro g hgm
    exact hg g (by simpa using hgm)
  · have t0 : charValue (b64uEnc m) 36 = (m.getD 27 0#8).extractLsb' 2 6 := by
      simp [charValue, b64uEnc, List.range, List.range.loop, encodeGroup, encodeTail]
    have t1 : charValue (b64uEnc m) 37 = (m.getD 27 0#8).extractLsb' 0 2 ++ 0#4 := by
      simp [charValue, b64uEnc, List.range, List.range.loop, encodeGroup, encodeTail]
    rw [t0, t1, decodeTail_slices]

/-- The token text has no character outside the alphabet. -/
theorem firstBadChar_b64uEnc (m : List Byte) : firstBadChar (b64uEnc m) = none := by
  simp only [firstBadChar, List.findIdx?_eq_none_iff]
  intro c hc
  obtain ⟨v, rfl⟩ := b64uEnc_alphabet m c hc
  simp

/-- The buffer written from 38 characters (R199). -/
theorem setToken_tokenBytes (s : State) (c : List Byte) (h : c.length = 38) :
    (s.setToken c).tokenBytes = c ++ [0x00#8, 0x00#8] := by
  simp only [State.tokenBytes, State.setToken_token]
  exact beBytes_words10 _ (by simp [h])

/-- The characters read from a buffer that begins with them (R39). -/
theorem tokenChars_of_tokenBytes (s : State) (c rest : List Byte) (h : c.length = 38)
    (hs : s.tokenBytes = c ++ rest) : s.tokenChars = c := by
  simp [State.tokenChars, slice, hs, ← h]

theorem tokenChars_getD (s : State) (j : Nat) (h : j < 38) (d : Byte) :
    s.tokenChars.getD j d = s.tokenBytes.getD j 0#8 := by
  have : j < s.tokenBytes.length := by simp; omega
  simp [State.tokenChars, slice, List.getD_eq_getElem?_getD, h, List.getElem?_eq_getElem this]

/-- The alphabet check passes exactly when every character is in the alphabet (R197). -/
theorem firstBadChar_eq_none (s : State) :
    firstBadChar s.tokenChars = none ↔ ∀ j, j < 38 → (alphaInv (s.tokenBytes.getD j 0#8)).isSome = true := by
  simp only [firstBadChar, List.findIdx?_eq_none_iff]
  constructor
  · intro h j hj
    have hm : s.tokenChars.getD j 0#8 ∈ s.tokenChars := by
      rw [List.getD_eq_getElem _ _ (by simpa using hj)]; exact List.getElem_mem _
    have := h _ hm
    rw [tokenChars_getD s j hj] at this
    cases ha : alphaInv (s.tokenBytes.getD j 0#8) <;> simp_all
  · intro h c hc
    obtain ⟨j, hj, rfl⟩ := List.getElem_of_mem hc
    have hj' : j < 38 := by simpa using hj
    have := h j hj'
    rw [← tokenChars_getD s j hj' 0#8, List.getD_eq_getElem _ _ hj] at this
    cases ha : alphaInv (s.tokenChars[j]) <;> simp_all

/-- The alphabet check reports the first bad index (R197). -/
theorem firstBadChar_eq_some (s : State) (j : Nat) (h : firstBadAt s j) : firstBadChar s.tokenChars = some j := by
  obtain ⟨h1, h2, h3⟩ := h
  simp only [firstBadChar, List.findIdx?_eq_some_iff_getElem]
  have hl : j < s.tokenChars.length := by simpa using h1
  refine ⟨hl, ?_, ?_⟩
  · have := tokenChars_getD s j h1 0#8
    rw [List.getD_eq_getElem _ _ hl] at this
    rw [this, h2]; rfl
  · intro k hk
    have hk' : k < s.tokenChars.length := by omega
    have := tokenChars_getD s k (by omega) 0#8
    rw [List.getD_eq_getElem _ _ hk'] at this
    have h4 := h3 k hk
    rw [this, Option.isNone_eq_false_iff.mpr h4]; simp

end Sys2Proof.Machine
end

