-- ==== Sys2Proof/Machine/Script.lean ====
section
/-!
DEFINITION. Command scripts, the assembler syntax of the block (R86, R87, R88 30_encoding.md; R272
70_reset_and_hazards.md): each statement as the bus transaction it makes. The text form is not modelled (log 9).
-/

namespace Sys2Proof.Machine

/-- The real statements of a script (R86). -/
inductive Stmt where
  /-- `WR <REG>, <value>`. -/
  | wr (r : Reg) (v : Word)
  /-- `RD <REG>`. -/
  | rd (r : Reg)
  /-- `CMD <MNEMONIC>`. -/
  | cmd (i : Instr)
  /-- `CMD 0x<word>`: a raw word, for illegal-encoding tests. -/
  | cmdRaw (w : Word)
  /-- `WAIT`. -/
  | wait
  deriving DecidableEq, Repr

/-- The input a statement makes (R86). -/
def Stmt.input : Stmt → Input
  | .wr r v => .bus (.write (Config.baseAddr + r.offset) 4 v)
  | .rd r => .bus (.read (Config.baseAddr + r.offset) 4)
  | .cmd i => .bus (.write (Config.baseAddr + Reg.cmd.offset) 4 (encode i))
  | .cmdRaw w => .bus (.write (Config.baseAddr + Reg.cmd.offset) 4 w)
  | .wait => .wait

/-- A script as the inputs the host issues, in program order (R67 20_memory.md). -/
def inputsOf (p : List Stmt) : List Input := p.map Stmt.input

/-- The script `p` loaded as what the host does next. -/
def State.withScript (p : List Stmt) (s : State) : State := { s with pending := inputsOf p }

/-- `RUN <MN>` (R87). -/
def run (i : Instr) : List Stmt := [.cmd i, .wait]

/-- `LDKEY E, k0, ..., k7` (R87). -/
def ldKeyE (k : Vector Word 8) : List Stmt :=
  [.wr (.ekey 0) k[0], .wr (.ekey 1) k[1], .wr (.ekey 2) k[2], .wr (.ekey 3) k[3],
   .wr (.ekey 4) k[4], .wr (.ekey 5) k[5], .wr (.ekey 6) k[6], .wr (.ekey 7) k[7], .wr .ekeyLen 32#32]

/-- `LDKEY I, k0, ..., k7` (R87). -/
def ldKeyI (k : Vector Word 8) : List Stmt :=
  [.wr (.ikey 0) k[0], .wr (.ikey 1) k[1], .wr (.ikey 2) k[2], .wr (.ikey 3) k[3],
   .wr (.ikey 4) k[4], .wr (.ikey 5) k[5], .wr (.ikey 6) k[6], .wr (.ikey 7) k[7], .wr .ikeyLen 32#32]

/-- `LDPRICE v` (R87). -/
def ldPrice (v : BitVec 64) : List Stmt := [.wr .priceHi (v.extractLsb' 32 32), .wr .priceLo (v.extractLsb' 0 32)]

/-- `LDTIME s, us` (R87). -/
def ldTime (sec usec : Word) : List Stmt := [.wr .timeSec sec, .wr .timeUsec usec]

/-- The text of an LDTOKEN has at most 40 bytes (R87). -/
def textFits (text : List Byte) : Bool := text.length ≤ 40

/-- `LDTOKEN "text"` (R87): the bytes packed big-endian, zero-filled to 40, then the length; no script where the
text is longer than 40 bytes. -/
def ldToken (text : List Byte) : Option (List Stmt) :=
  if textFits text then
    let w := words10 (text ++ List.replicate (40 - text.length) 0x00#8)
    some
      [.wr (.token 0) w[0], .wr (.token 1) w[1], .wr (.token 2) w[2], .wr (.token 3) w[3], .wr (.token 4) w[4],
       .wr (.token 5) w[5], .wr (.token 6) w[6], .wr (.token 7) w[7], .wr (.token 8) w[8], .wr (.token 9) w[9],
       .wr .tokenLen (BitVec.ofNat 32 text.length)]
  else none

/-- `CLRDONE` (R87). -/
def clrDone : List Stmt := [.wr .status 0x00000002#32]

/-- `CLROVR` (R87). -/
def clrOvr : List Stmt := [.wr .status 0x00000010#32]

/-- Ten reads of the token buffer. -/
def readToken : List Stmt :=
  [.rd (.token 0), .rd (.token 1), .rd (.token 2), .rd (.token 3), .rd (.token 4),
   .rd (.token 5), .rd (.token 6), .rd (.token 7), .rd (.token 8), .rd (.token 9)]

/-- The boot sequence, "construction" (R272 steps 1 to 4). -/
def bootScript (ek ik : Vector Word 8) : List Stmt := ldKeyE ek ++ ldKeyI ik ++ run .commitKeys ++ [.rd .status]

/-- The source's `encode(price)` as a script (R88). -/
def encodeScript (price : BitVec 64) (sec usec : Word) : List Stmt :=
  ldPrice price ++ ldTime sec usec ++ run .encodeToken ++ readToken

/-- The source's `decode(token)` as a script (R88). -/
def decodeScript (text : List Byte) : Option (List Stmt) :=
  (ldToken text).map fun load =>
    load ++ run .decodeToken ++ [.rd .status, .rd .priceHi, .rd .priceLo, .rd .tsSec, .rd .tsUsec]

end Sys2Proof.Machine
end

