-- ==== Sys2Proof/Tests/Slice0.lean ====
section
/-!
SUPPORT. Tests whose expected results come from spec/ (the vector T<n>, V<n> or program P<n> of 95_test_vectors.md is
named), and the witnesses: for every obligation with hypotheses, a concrete state and operands that meet them.
-/

namespace Sys2Proof.Tests

open Sys2Proof Sys2Proof.Machine

-- One proof after another: a kernel evaluation that waits for its turn holds a thread.
set_option Elab.async false

/-! ## Helpers -/

/-- The outcome is a next state that has the property `p`. -/
def ends (o : Host.Outcome State Fault Refusal) (p : State → Bool) : Bool :=
  match o with
  | .next t => p t
  | _ => false

theorem exists_of_ends {o : Host.Outcome State Fault Refusal} {p : State → Bool} (h : ends o p = true) :
    ∃ t, o = .next t ∧ p t = true := by
  cases o with
  | next t => exact ⟨t, rfl, h⟩
  | fault f => simp [ends] at h
  | refused r => simp [ends] at h

/-- RESULT, ERR_INFO and STATUS as the vectors of 95_test_vectors.md print them. -/
def reads (result : BitVec 4) (info status : Word) (t : State) : Bool :=
  t.result == result && t.errInfo == info && t.statusWord == status

/-- The state after program P0: the source's keys committed. -/
def keyed : State :=
  { State.reset with
    ek := #v[0xB08C70CF#32, 0xBCB0EB6C#32, 0xAB7E82C6#32, 0xB75DA520#32, 0x72AE62B2#32, 0xBF4B990B#32,
             0xB80A48D8#32, 0x141EEC07#32]
    ik := #v[0xBF77EC55#32, 0xC30130C1#32, 0xD8CD1862#32, 0xED2A4CD2#32, 0xC76AC33B#32, 0xC0C4CE8A#32,
             0x3D3BBD3A#32, 0xD5687792#32]
    ekeyLen := 32#32
    ikeyLen := 32#32
    keysValid := true
    done := true }

/-- `s` with the token of vector V1 loaded, its last word (characters 36 and 37) being `last`. -/
def withV1 (last : Word) (s : State) : State :=
  { s with
    token := #v[0x536A7076#32, 0x52774142#32, 0x346B4237#32, 0x6A457067#32, 0x57354941#32, 0x38703733#32,
                0x65773969#32, 0x6336565A#32, 0x70467350#32, last]
    tokenLen := 38#32 }

/-- The keyed block with V1's token. -/
def v1 : State := withV1 0x6E410000#32 keyed

/-- V1's fields in IV, ENC_PRICE, PAD and PRICE. -/
def v1Fields : State :=
  { keyed with
    iv := #v[0x4A3A6F47#32, 0x0001E240#32, 0x7B8C4A60#32, 0x5B9200F2#32]
    encPriceHi := 0x9EF77B0F#32, encPriceLo := 0x6273A559#32
    padHi := 0x9EF77B0F#32, padLo := 0x48228559#32
    priceLo := 0x2A512000#32, sig := 0xA45B0F9C#32 }

/-- An engine that runs the word `w` and outlasts `n` more host transactions. -/
def running (w : Word) (n : Nat) (s : State) : State := { s with eng := .busy w, done := false, lag := n }

/-- The ASCII bytes of a text. -/
def ascii (t : String) : List Byte := t.toList.map (fun c => BitVec.ofNat 8 c.toNat)

/-! ## Decoding: MBZ(24) then OPCODE(8), by R80 and the rows of R83 -/

theorem test_decode_control :
    decodeWord 0b00000000000000000000000000000000#32 = .ok .nop ∧
    decodeWord 0b00000000000000000000000000000001#32 = .ok .commitKeys ∧
    decodeWord 0b00000000000000000000000000000010#32 = .ok .zeroize := by decide

theorem test_decode_timestamp :
    decodeWord 0b00000000000000000000000000010000#32 = .ok .timeEnc ∧
    decodeWord 0b00000000000000000000000000010001#32 = .ok .timeDec := by decide

theorem test_decode_hmac :
    decodeWord 0b00000000000000000000000000100000#32 = .ok .hmacPad ∧
    decodeWord 0b00000000000000000000000000100001#32 = .ok .sigGen ∧
    decodeWord 0b00000000000000000000000000100010#32 = .ok .sigChk := by decide

theorem test_decode_xor :
    decodeWord 0b00000000000000000000000000110000#32 = .ok .xorMask ∧
    decodeWord 0b00000000000000000000000000110001#32 = .ok .xorUnmask := by decide

theorem test_decode_base64 :
    decodeWord 0b00000000000000000000000001000000#32 = .ok .b64Enc ∧
    decodeWord 0b00000000000000000000000001000001#32 = .ok .b64Dec := by decide

theorem test_decode_token :
    decodeWord 0b00000000000000000000000001010000#32 = .ok .encodeToken ∧
    decodeWord 0b00000000000000000000000001010001#32 = .ok .decodeToken := by decide

/-- T13 to T18's words: reserved opcodes, and a mapped opcode under a nonzero MBZ. -/
theorem test_illegal_words_are_refused :
    decodeWord 0x00000003#32 = .error .opcodeNotMapped ∧ decodeWord 0x00000012#32 = .error .opcodeNotMapped ∧
    decodeWord 0x00000052#32 = .error .opcodeNotMapped ∧ decodeWord 0x00000100#32 = .error .mbzNonzero ∧
    decodeWord 0x00000120#32 = .error .mbzNonzero ∧ decodeWord 0xFFFFFFFF#32 = .error .mbzNonzero := by decide

/-- Words numbered as the table numbers them: DECODE's, a word wider than the instruction, a reserved opcode. -/
theorem test_decodeTableWord :
    decodeTableWord 32 0x51 = some .decodeToken ∧ decodeTableWord 8 0x22 = some .sigChk ∧
    decodeTableWord 40 0x100000000 = none ∧ decodeTableWord 32 0x53 = none := by decide

/-! ## WellFormed: a word or a text for each check that the check refuses -/

/-- Each gap of R84's list, at both ends. -/
theorem test_reservedOpcode_refuses :
    ([0x03, 0x0F, 0x12, 0x1F, 0x23, 0x2F, 0x32, 0x3F, 0x42, 0x4F, 0x52, 0xFF].all
      (fun op => !legalWord (BitVec.ofNat 32 op))) = true := by decide

theorem test_mbzClear_refuses : mbzClear 0x00000100#32 = false ∧ legalWord 0x80000000#32 = false := by decide

/-- R87: LDTOKEN takes at most 40 bytes. -/
theorem test_textFits_refuses :
    textFits (List.replicate 40 0x41#8) = true ∧ textFits (List.replicate 41 0x41#8) = false ∧
    ldToken (List.replicate 41 0x41#8) = none := by decide +kernel

/-! ## SHA-1 and HMAC (95_test_vectors.md 2.1) -/

theorem test_sha1_abc :
    sha1 (ascii "abc") =
      beBytes [0xa9993e36#32, 0x4706816a#32, 0xba3e2571#32, 0x7850c26c#32, 0x9cd0d89d#32] := by decide +kernel

/-- Two blocks. -/
theorem test_sha1_two_blocks :
    sha1 (ascii "abcdbcdecdefdefgefghfghighijhijkijkljklmklmnlmnomnopnopq") =
      beBytes [0x84983e44#32, 0x1c3bd26e#32, 0xbaae4aa1#32, 0xf95129e5#32, 0xe54670f1#32] := by decide +kernel

/-! ## Commands -/

/-- T12's shape: NOP after ZEROIZE. -/
theorem test_nop : ends (exec .nop keyed) (fun t => reads 0#4 0#32 0x00000006#32 t && t == keyed) = true := by
  decide +kernel

/-- T2. -/
theorem test_commitKeys_ok :
    ends (exec .commitKeys { State.reset with ekeyLen := 32#32, ikeyLen := 32#32 })
      (reads 0#4 0#32 0x00000006#32) = true := by decide +kernel

/-- T3 to T6. -/
theorem test_commitKeys_bad_lengths :
    ([(31#32, 32#32, 1#32), (32#32, 31#32, 2#32), (33#32, 0#32, 3#32), (0xFFFFFFFF#32, 64#32, 3#32)].all
      (fun v => ends (exec .commitKeys { State.reset with ekeyLen := v.1, ikeyLen := v.2.1 })
        (reads 1#4 v.2.2 0x00000102#32))) = true := by decide +kernel

/-- T11. -/
theorem test_zeroize :
    ends (exec .zeroize { v1Fields with authOk := true, sigCalc := 0xA45B0F9C#32 })
      (fun t => reads 0#4 0#32 0x00000002#32 t && t.ekeyLen == 0#32 && t.ikeyLen == 0#32 && t.padHi == 0#32 &&
        t.sigCalc == 0#32 && t.ekBytes == List.replicate 32 0x00#8 && t.priceLo == 0x2A512000#32 &&
        t.sig == 0xA45B0F9C#32) = true := by decide +kernel

/-- T20 and T22. -/
theorem test_timeEnc :
    ends (exec .timeEnc { State.reset with timeSec := 0x4A3A6F47#32, timeUsec := 0x0001E240#32 })
      (fun t => t.result == 0#4 && t.iv == #v[0x4A3A6F47#32, 0x0001E240#32, 0x4A3A6F47#32, 0x0001E240#32]) = true ∧
    ends (exec .timeEnc { State.reset with timeSec := 0xFFFFFFFF#32, timeUsec := 999999#32 })
      (fun t => t.result == 0#4 && t.iv == #v[0xFFFFFFFF#32, 0x000F423F#32, 0xFFFFFFFF#32, 0x000F423F#32]) = true := by
  decide +kernel

/-- T24 and T25. -/
theorem test_timeEnc_range :
    ([1000000#32, 0xFFFFFFFF#32].all
      (fun us => ends (exec .timeEnc { State.reset with timeUsec := us, iv := #v[0x11111111#32, 0#32, 0#32, 0#32] })
        (fun t => reads 3#4 1#32 0x00000302#32 t && t.iv == #v[0x11111111#32, 0#32, 0#32, 0#32]))) = true := by
  decide +kernel

/-- T27. -/
theorem test_timeDec :
    ends (exec .timeDec v1Fields) (fun t => t.result == 0#4 && t.tsSec == 0x4A3A6F47#32 && t.tsUsec == 0x0001E240#32) =
      true := by decide +kernel

/-- T30. -/
theorem test_hmacPad :
    ends (exec .hmacPad v1Fields)
      (fun t => reads 0#4 0#32 0x00000006#32 t && t.padHi == 0x9EF77B0F#32 && t.padLo == 0x48228559#32 &&
        t.digest == #v[0x9EF77B0F#32, 0x48228559#32, 0x3AB0F097#32, 0x1DBC0761#32, 0x839A90EA#32]) = true := by
  decide +kernel

/-- T9. -/
theorem test_hmacPad_no_keys : ends (exec .hmacPad State.reset) (reads 5#4 0#32 0x00000502#32) = true := by
  decide +kernel

/-- T31. -/
theorem test_sigGen :
    ends (exec .sigGen { v1Fields with sig := 0#32 })
      (fun t => reads 0#4 0#32 0x00000006#32 t && t.sig == 0xA45B0F9C#32 && t.sigCalc == 0xA45B0F9C#32 &&
        t.digest == #v[0xA45B0F9C#32, 0x3A3D602F#32, 0x89BEF540#32, 0x67E74DBC#32, 0x8DFD4B26#32]) = true := by
  decide +kernel

/-- T32. -/
theorem test_sigChk_ok :
    ends (exec .sigChk v1Fields) (fun t => reads 0#4 0#32 0x0000000E#32 t && t.authOk) = true := by decide +kernel

/-- T33. -/
theorem test_sigChk_fails :
    ends (exec .sigChk { v1Fields with sig := 0xA45B0F9D#32, authOk := true })
      (fun t => reads 4#4 0#32 0x00000406#32 t && t.sig == 0xA45B0F9D#32 && t.sigCalc == 0xA45B0F9C#32) = true := by
  decide +kernel

/-- T41 and T43. -/
theorem test_xorMask :
    ends (exec .xorMask v1Fields) (fun t => t.encPriceHi == 0x9EF77B0F#32 && t.encPriceLo == 0x6273A559#32) = true ∧
    ends (exec .xorMask { v1Fields with priceHi := 0x80000000#32, priceLo := 0#32 })
      (fun t => t.encPriceHi == 0x1EF77B0F#32 && t.encPriceLo == 0x48228559#32) = true := by decide +kernel

/-- T42. -/
theorem test_xorUnmask :
    ends (exec .xorUnmask { v1Fields with priceHi := 7#32, priceLo := 0#32 })
      (fun t => t.priceHi == 0#32 && t.priceLo == 0x2A512000#32) = true := by decide +kernel

/-- T51: 37 `_`, then `w`. -/
theorem test_b64Enc_ones :
    ends (exec .b64Enc
        { State.reset with
          iv := Vector.replicate 4 0xFFFFFFFF#32, encPriceHi := 0xFFFFFFFF#32, encPriceLo := 0xFFFFFFFF#32,
          sig := 0xFFFFFFFF#32 })
      (fun t => t.tokenBytes == List.replicate 37 0x5F#8 ++ [0x77#8, 0x00#8, 0x00#8] && t.tokenLen == 38#32) = true := by
  decide +kernel

/-- T55. -/
theorem test_b64Enc_v1 :
    ends (exec .b64Enc v1Fields)
      (fun t => t.tokenChars == ascii "SjpvRwAB4kB7jEpgW5IA8p73ew9ic6VZpFsPnA" && t.token == v1.token) = true := by
  decide +kernel

/-- T56, T58, T59: the last character `A`, `P` (tail bits set) and `Q`. -/
theorem test_b64Dec_tail_bits :
    ends (exec .b64Dec v1)
      (fun t => t.result == 0#4 && t.sig == 0xA45B0F9C#32 && t.iv == v1Fields.iv && t.encPriceLo == 0x6273A559#32) =
      true ∧
    ends (exec .b64Dec (withV1 0x6E500000#32 keyed)) (fun t => t.result == 0#4 && t.sig == 0xA45B0F9C#32) = true ∧
    ends (exec .b64Dec (withV1 0x6E510000#32 keyed)) (fun t => t.result == 0#4 && t.sig == 0xA45B0F9D#32) = true := by
  decide +kernel

/-- T62, T65, T68: the length, `=` at 37, and the first of two bad characters (a space at 12, `+` at 31). -/
theorem test_b64Dec_format :
    ends (exec .b64Dec { v1 with tokenLen := 37#32, sig := 0x55#32 })
      (fun t => t.result == 2#4 && t.errInfo == 1#32 && t.sig == 0x55#32) = true ∧
    ends (exec .b64Dec (withV1 0x6E3D0000#32 keyed)) (fun t => t.result == 2#4 && t.errInfo == 0x00002503#32) = true ∧
    ends (exec .b64Dec { v1 with token := (v1.token.set 3 0x20457067#32).set 7 0x6336562B#32 })
      (fun t => t.result == 2#4 && t.errInfo == 0x00000C03#32) = true := by decide +kernel

/-- V3, with program P1's registers. -/
theorem test_encode_v3 :
    ends (exec .encodeToken
        { keyed with priceLo := 0x2A512000#32, timeSec := 0x4A3A6F47#32, timeUsec := 0x0001E240#32 })
      (fun t => reads 0#4 0#32 0x00000006#32 t && t.padHi == 0xBE3D4F9E#32 && t.padLo == 0xE9787853#32 &&
        t.encPriceHi == 0xBE3D4F9E#32 && t.encPriceLo == 0xC3295853#32 && t.sig == 0xD854F0AD#32 &&
        t.digest == #v[0xD854F0AD#32, 0x40EC184F#32, 0xC6D6C661#32, 0x4E814989#32, 0xB5F9D43A#32] &&
        t.tokenChars == ascii "SjpvRwAB4kBKOm9HAAHiQL49T57DKVhT2FTwrQ") = true := by decide +kernel

/-- T74 and T75: RANGE, and NO_KEYS before it. -/
theorem test_encode_failures :
    ends (exec .encodeToken { keyed with timeUsec := 1000000#32, iv := #v[7#32, 0#32, 0#32, 0#32] })
      (fun t => reads 3#4 1#32 0x00000306#32 t && t.iv == #v[7#32, 0#32, 0#32, 0#32]) = true ∧
    ends (exec .encodeToken { State.reset with timeUsec := 1000000#32 }) (reads 5#4 0#32 0x00000502#32) = true := by
  decide +kernel

/-- V1, with program P2's registers. -/
theorem test_decode_v1 :
    ends (exec .decodeToken v1)
      (fun t => reads 0#4 0#32 0x0000000E#32 t && t.priceHi == 0#32 && t.priceLo == 0x2A512000#32 &&
        t.tsSec == 0x4A3A6F47#32 && t.tsUsec == 0x0001E240#32 && t.padLo == 0x48228559#32 &&
        t.iv == v1Fields.iv && t.digest == #v[0xA45B0F9C#32, 0x3A3D602F#32, 0x89BEF540#32, 0x67E74DBC#32, 0x8DFD4B26#32]) =
      true := by decide +kernel

/-- T78 (character 0 `T`) and T79: AUTH_FAIL zeroes the price, a FORMAT failure keeps it. -/
theorem test_decode_failures :
    ends (exec .decodeToken { v1 with token := v1.token.set 0 0x546A7076#32, priceLo := 5#32 })
      (fun t => reads 4#4 0#32 0x00000406#32 t && t.iv[0] == 0x4E3A6F47#32 && t.sig == 0xA45B0F9C#32 &&
        t.sigCalc == 0x207D4531#32 && t.priceLo == 0#32) = true ∧
    ends (exec .decodeToken { v1 with tokenLen := 37#32, priceLo := 5#32 })
      (fun t => reads 2#4 1#32 0x00000206#32 t && t.priceLo == 5#32) = true := by decide +kernel

/-! ## The step, registers and hazards -/

/-- T18: the word in the engine's latch is decoded, run and completed by one step. -/
theorem test_step_runs_the_latch :
    ends (step (keyed.withFetchWord 32 0x120)) (reads 6#4 0x120#32 0x00000606#32) = true ∧
    ends (step (State.reset.withFetchWord 32 0x20)) (reads 5#4 0#32 0x00000502#32) = true ∧
    ends (step ((State.reset.withFetchWord 8 0x00))) (reads 0#4 0#32 0x00000002#32) = true := by decide +kernel

/-- T1 and T7: ID, and a key-word write that clears KEYS_VALID. -/
theorem test_registers :
    (memRead 0x000 4 State.reset).resp = .readData 0x52544231#32 ∧
    (memWrite 0x02C 4 0#32 keyed).statusWord = 0x00000002#32 ∧
    (memRead 0x020 4 keyed).resp = .readData 0#32 := by decide +kernel

/-- T90 to T93: what the host writes while a command runs. -/
theorem test_busy_writes :
    (memWrite 0x074 4 5#32 (running 0x50#32 3 keyed)).priceLo = 0#32 ∧
    (memWrite 0x074 4 5#32 (running 0x50#32 3 keyed)).ovr = true ∧
    (memWrite 0x00C 4 0x10#32 (memWrite 0x074 4 5#32 (running 0x50#32 3 keyed))).ovr = false ∧
    (memWrite 0x004 4 1#32 (running 0x50#32 3 keyed)).irqEn = true ∧
    (memWrite 0x004 4 1#32 (running 0x50#32 3 keyed)).irq = false ∧
    (memWrite 0x008 4 0#32 (running 0x50#32 3 keyed)).eng = .busy 0x50#32 := by decide +kernel

/-- T94 and T95: a register in the write set reads a free value, another its value. -/
theorem test_busy_reads (s : State) :
    (memRead 0x0C4 4 (running 0x50#32 3 s)).resp = .readData (Config.freeWord s.draws) ∧
    (memRead 0x060 4 (running 0x50#32 3 s)).resp = .readData s.timeSec := by
  refine ⟨rfl, rfl⟩

/-- A bus error for a misaligned and for a narrow access (R62), a reserved offset (R40). -/
theorem test_bus_errors :
    (memWrite 0x075 4 5#32 keyed) = { keyed with resp := .busError 0#32 } ∧
    (memRead 0x074 2 keyed).resp = .busError 0#32 ∧ (memRead 0x0FC 4 keyed).resp = .readData 0#32 := by
  decide +kernel

/-- P4's LDPRICE -1234567 and P2's LDTOKEN as register writes. -/
theorem test_script_packing :
    ldPrice (BitVec.ofInt 64 (-1234567)) = [.wr .priceHi 0xFFFFFFFF#32, .wr .priceLo 0xFFED2979#32] ∧
    (ldToken (ascii "SjpvRwAB4kB7jEpgW5IA8p73ew9ic6VZpFsPnA")).map (·.drop 9) =
      some [.wr (.token 9) 0x6E410000#32, .wr .tokenLen 0x26#32] := by decide +kernel

/-! ## Witnesses: states and operands that meet the hypotheses of each obligation, clause by clause -/

theorem witness_DecodeAgreesWithEncode :
    Instr.wellFormed .decodeToken = true ∧ decodeWord 0x51#32 = .ok .decodeToken ∧ 0x51#32 = encode .decodeToken := by
  decide

theorem witness_CommandWriteIsAcceptedOrDropped :
    (∃ s : State, s.pending = .bus (.write (Config.baseAddr + 0x008) 4 0x50#32) :: [] ∧ s.eng = .idle) ∧
    ∃ s : State, s.pending = .bus (.write (Config.baseAddr + 0x008) 4 0x50#32) :: [] ∧ s.eng = .busy 0x51#32 ∧
      s.lag ≠ 0 :=
  ⟨⟨{ keyed with pending := [.bus (.write (Config.baseAddr + 0x008) 4 0x50#32)] }, rfl, rfl⟩,
   ⟨{ running 0x51#32 1 keyed with pending := [.bus (.write (Config.baseAddr + 0x008) 4 0x50#32)] },
    rfl, rfl, Nat.one_ne_zero⟩⟩

theorem witness_StepRunsTheLatchedCommand :
    (∃ s : State, s.eng = .busy 0x20#32 ∧ decodeWord 0x20#32 = .ok .hmacPad ∧ s.lag = 0) ∧
    (∃ s : State, s.eng = .busy 0x20#32 ∧ decodeWord 0x20#32 = .ok .hmacPad ∧ s.lag ≠ 0 ∧ s.pending = []) ∧
    ∃ s : State, s.eng = .busy 0x20#32 ∧ s.pending = .wait :: [] ∧ s.lag ≠ 0 :=
  ⟨⟨running 0x20#32 0 keyed, rfl, rfl, rfl⟩, ⟨running 0x20#32 1 keyed, rfl, rfl, Nat.one_ne_zero, rfl⟩,
   ⟨{ running 0x20#32 1 keyed with pending := [.wait] }, rfl, rfl, Nat.one_ne_zero⟩⟩

/-- A legal word that succeeds, one that fails, and an illegal word. -/
theorem witness_EveryLatchedWordCompletes :
    (running 0x01#32 0 keyed).eng = .busy 0x01#32 ∧ (running 0xFFFFFFFF#32 0 keyed).eng = .busy 0xFFFFFFFF#32 ∧
    ends (runEngine (running 0x20#32 0 State.reset)) (fun t => t.result != ResultCode.ok.bits) = true := by
  decide +kernel

theorem witness_FailureWritesOnlyStatus :
    (∃ t, exec .commitKeys State.reset = .next t ∧ t.result ≠ ResultCode.ok.bits ∧
      t.result ≠ ResultCode.authFail.bits) ∧
    ∃ t, exec .decodeToken State.reset = .next t ∧ t.result ≠ ResultCode.ok.bits ∧
      t.result ≠ ResultCode.authFail.bits :=
  ⟨⟨_, rfl, by decide, by decide⟩, ⟨_, rfl, by decide, by decide⟩⟩

theorem witness_CommandsKeepRegistersOutsideWriteSet :
    (∃ t, exec .timeEnc v1Fields = .next t) ∧ inWriteSet .timeEnc .sig = false ∧ inWriteSet .decodeToken .tokenLen = false :=
  ⟨⟨_, rfl⟩, rfl, rfl⟩

theorem witness_IllegalWordCompletesWithIllegalCmd :
    legalWord 0xFFFFFFFF#32 = false ∧ legalWord 0x00000100#32 = false ∧ keyed.eng = .idle ∧
    (running 0x100#32 0 keyed).eng = .busy 0x100#32 ∧ (running 0x100#32 0 keyed).lag = 0 := by decide

theorem witness_KeyedCommandsWithoutKeysRaiseNoKeys :
    ([Instr.hmacPad, .sigGen, .sigChk, .encodeToken, .decodeToken].all needsKeys) = true ∧
    State.reset.keysValid = false := by decide

/-- Bad characters at both ends of the range of indexes, and an accepted token. -/
theorem witness_FirstFailureInOrderIsReported :
    ((running 0x03#32 0 keyed).eng = .busy 0x03#32 ∧ legalWord 0x03#32 = false) ∧
    (needsKeys .sigChk = true ∧ State.reset.keysValid = false) ∧
    ({ keyed with timeUsec := 1000000#32 } : State).keysValid = true ∧
    999999 < ({ keyed with timeUsec := 1000000#32 } : State).timeUsec.toNat ∧
    ({ v1 with tokenLen := 39#32 } : State).tokenLen ≠ 38#32 ∧
    firstBadAt { v1 with token := v1.token.set 0 0x2B6A7076#32 } 0 ∧
    firstBadAt (withV1 0x6E3D0000#32 keyed) 37 ∧ tokenAccepted v1 := by
  unfold firstBadAt tokenAccepted
  decide +kernel

/-- Each code once, and a latched legal word. -/
theorem witness_ResultCodesComeFromTheirConditions :
    ends (exec .commitKeys State.reset) (fun t => t.result == 1#4) = true ∧
    ends (exec .b64Dec State.reset) (fun t => t.result == 2#4) = true ∧
    ends (exec .timeEnc { keyed with timeUsec := 1000000#32 }) (fun t => t.result == 3#4) = true ∧
    ends (exec .sigChk { v1Fields with sig := 0#32 }) (fun t => t.result == 4#4) = true ∧
    ends (exec .hmacPad State.reset) (fun t => t.result == 5#4) = true ∧
    ends (runEngine (running 0x03#32 0 keyed)) (fun t => t.result == 6#4) = true ∧
    ends (runEngine (running 0x00#32 0 keyed)) (fun t => t.result == 0#4) = true := by decide +kernel

theorem witness_CommitKeysChecksBothLengths :
    (keyed.ekeyLen = 32#32 ∧ keyed.ikeyLen = 32#32) ∧
    ¬ (({ keyed with ikeyLen := 33#32 } : State).ekeyLen = 32#32 ∧
      ({ keyed with ikeyLen := 33#32 } : State).ikeyLen = 32#32) := by decide

/-- Both sides of the limit; the same states meet the hypothesis of TimeRoundTripIsExact. -/
theorem witness_TimeEncPacksTheSample :
    ({ keyed with timeUsec := 999999#32 } : State).timeUsec.toNat ≤ 999999 ∧
    999999 < ({ keyed with timeUsec := 1000000#32 } : State).timeUsec.toNat := by decide

theorem witness_TimeRoundTripIsExact : ({ keyed with timeUsec := 999999#32 } : State).timeUsec.toNat ≤ 999999 := by
  decide

/-- A message of 55 bytes, the longest that one block holds, and one of 56. -/
theorem witness_Sha1PaddingIsMinimal :
    ((List.replicate 55 0x61#8).length + 1 + 0) % 64 = 56 ∧ ((List.replicate 56 0x61#8).length + 1 + 63) % 64 = 56 := by
  decide

theorem witness_Sha1ScheduleRecurrence : (List.replicate 16 0x61626380#32).length = 16 := by decide

theorem witness_HmacPadDerivesPad : v1Fields.keysValid = true := by decide

theorem witness_SigGenPlacesPrefix : v1Fields.keysValid = true := by decide

/-- T32 and T33: the prefixes are equal, and they are not. -/
theorem witness_SigChkComparesPrefix :
    v1Fields.keysValid = true ∧
    ends (exec .sigChk v1Fields) (fun t => t.sigCalcBytes == v1Fields.sigBytes) = true ∧
    ends (exec .sigChk { v1Fields with sig := 0xA45B0F9D#32 })
      (fun t => t.sigCalcBytes != ({ v1Fields with sig := 0xA45B0F9D#32 } : State).sigBytes) = true := by
  decide +kernel

theorem witness_B64DecSplitsToken :
    tokenAccepted v1 ∧ ({ v1 with tokenLen := 40#32 } : State).tokenLen ≠ 38#32 ∧
    ((withV1 0x6E3D0000#32 keyed).tokenLen = 38#32 ∧ firstBadAt (withV1 0x6E3D0000#32 keyed) 37) := by
  unfold firstBadAt tokenAccepted
  decide +kernel

/-- T58: tail bits set, so that normalising changes the character. -/
theorem witness_B64EncAfterDecNormalisesLastChar : tokenAccepted (withV1 0x6E500000#32 keyed) := by
  unfold tokenAccepted
  decide +kernel

theorem witness_TokensAgreeUpToTailBits :
    tokenAccepted v1 ∧ tokenAccepted (withV1 0x6E500000#32 keyed) ∧
    alphaInv (v1.tokenBytes.getD 37 0#8) = some 0#6 ∧
    alphaInv ((withV1 0x6E500000#32 keyed).tokenBytes.getD 37 0#8) = some 15#6 := by
  unfold tokenAccepted
  decide +kernel

theorem witness_EncodeMakesToken :
    State.reset.keysValid = false ∧
    (({ keyed with timeUsec := 1000000#32 } : State).keysValid = true ∧
      999999 < ({ keyed with timeUsec := 1000000#32 } : State).timeUsec.toNat) ∧
    ({ keyed with timeUsec := 999999#32 } : State).keysValid = true ∧
    ({ keyed with timeUsec := 999999#32 } : State).timeUsec.toNat ≤ 999999 := by decide

/-- T80, T79, T65, V1 (the prefixes are equal) and T77 (they are not). -/
theorem witness_DecodeChecksToken :
    State.reset.keysValid = false ∧
    (v1.keysValid = true ∧ ({ v1 with tokenLen := 37#32 } : State).tokenLen ≠ 38#32) ∧
    ((withV1 0x6E3D0000#32 keyed).tokenLen = 38#32 ∧ firstBadAt (withV1 0x6E3D0000#32 keyed) 37) ∧
    (tokenAccepted v1 ∧ ends (exec .decodeToken v1) (fun t => t.sigCalc == t.sig) = true) ∧
    (tokenAccepted (withV1 0x6E510000#32 keyed) ∧
      ends (exec .decodeToken (withV1 0x6E510000#32 keyed)) (fun t => t.sigCalc != t.sig) = true) := by
  unfold firstBadAt tokenAccepted
  decide +kernel

theorem witness_EncodeEqualsPrimitiveSequence :
    ({ keyed with timeUsec := 999999#32 } : State).timeUsec.toNat ≤ 999999 ∧ keyed.keysValid = true ∧
    State.reset.timeUsec.toNat ≤ 999999 ∧ State.reset.keysValid = false := by decide

/-- V1 with its keys and without, and T77's token, whose primitive sequence ends in a mismatch. -/
theorem witness_DecodeEqualsPrimitiveSequence :
    (tokenAccepted v1 ∧ v1.keysValid = true) ∧
    (tokenAccepted (withV1 0x6E410000#32 State.reset) ∧ (withV1 0x6E410000#32 State.reset).keysValid = false) ∧
    ends (execAll [.b64Dec, .hmacPad, .xorUnmask, .sigChk] (withV1 0x6E510000#32 keyed)) (fun u => u.sigCalc != u.sig) =
      true := by
  unfold tokenAccepted
  decide +kernel

theorem witness_DecodeOfEncodeRestoresPriceAndTime :
    ({ keyed with timeUsec := 999999#32 } : State).keysValid = true ∧
    ({ keyed with timeUsec := 999999#32 } : State).timeUsec.toNat ≤ 999999 := by decide

/-- T77, T78 and T76: a changed signature field, a changed IV, changed tail bits. -/
theorem witness_ChangedTokenIsAcceptedExactlyOnMatch :
    (v1.keysValid = true ∧ ∃ t, exec .decodeToken v1 = .next t ∧ t.result = 0#4) ∧
    (let m := v1.tokenMessage
     let q := withV1 0x6E510000#32 keyed
     let i : State := { v1 with token := v1.token.set 0 0x546A7076#32 }
     let b := withV1 0x6E420000#32 keyed
     (tokenAccepted q ∧ q.tokenMessage.take 24 = m.take 24 ∧ q.tokenMessage.drop 24 ≠ m.drop 24) ∧
     (tokenAccepted i ∧ i.tokenMessage.take 24 ≠ m.take 24) ∧
     (tokenAccepted b ∧ alphaInv (v1.tokenBytes.getD 37 0#8) = some 0#6 ∧
      alphaInv (b.tokenBytes.getD 37 0#8) = some 1#6 ∧ v1.tokenBytes.take 37 = b.tokenBytes.take 37 ∧
      (0#6).extractLsb' 4 2 = (1#6).extractLsb' 4 2)) := by
  refine ⟨⟨by decide, ?_⟩, ?_⟩
  · obtain ⟨t, h, hr⟩ := exists_of_ends (o := exec .decodeToken v1) (p := fun t => t.result == 0#4) (by decide +kernel)
    exact ⟨t, h, eq_of_beq hr⟩
  · unfold tokenAccepted
    decide +kernel

theorem witness_KnownVectorDecodes :
    v1.keysValid = true ∧ v1.ek = keyed.ek ∧ v1.ik = keyed.ik ∧ v1.tokenLen = 38#32 ∧ v1.ovr = false ∧
    v1.token = #v[0x536A7076#32, 0x52774142#32, 0x346B4237#32, 0x6A457067#32, 0x57354941#32, 0x38703733#32,
                  0x65773969#32, 0x6336565A#32, 0x70467350#32, 0x6E410000#32] := by decide

/-- Two blocks that differ in registers the commands do not read: ENCODE and DECODE that succeed, and DECODE of T77's
token, which ends in AUTH_FAIL. -/
theorem witness_TokenCommandsDependOnOperandsOnly :
    ends (exec .encodeToken keyed) (fun t => t.result == 0#4) = true ∧
    ends (exec .encodeToken { keyed with iv := v1Fields.iv, authOk := true }) (fun t => t.result == 0#4) = true ∧
    ends (exec .decodeToken v1) (fun t => t.result == 0#4) = true ∧
    ends (exec .decodeToken (withV1 0x6E41FFFF#32 { keyed with priceLo := 5#32 })) (fun t => t.result == 0#4) = true ∧
    ends (exec .decodeToken (withV1 0x6E510000#32 keyed)) (fun t => t.result == 4#4) = true ∧
    ends (exec .decodeToken (withV1 0x6E51FFFF#32 { keyed with priceLo := 5#32 })) (fun t => t.result == 4#4) = true ∧
    (withV1 0x6E51FFFF#32 { keyed with priceLo := 5#32 }).tokenBytes.take 38 =
      (withV1 0x6E510000#32 keyed).tokenBytes.take 38 ∧
    (withV1 0x6E41FFFF#32 { keyed with priceLo := 5#32 }).tokenBytes.take 38 = v1.tokenBytes.take 38 := by
  decide +kernel

theorem witness_CtrlGatesTheInterrupt :
    (∃ t, exec .nop { keyed with irqEn := true } = .next t) ∧
    ({ keyed with irqEn := true } : State).irqEn = true ∧ State.reset.irqEn = false ∧
    (Inv (running 0x50#32 0 State.reset) ∧ (running 0x50#32 0 State.reset).busy = true) :=
  ⟨⟨_, rfl⟩, rfl, rfl, ⟨⟨by decide, by decide, .inl ⟨rfl, rfl⟩⟩, rfl⟩⟩

theorem witness_DataRegisterWriteReadsBack :
    keyed.eng = .idle ∧ Reg.isReadWriteData (.token 9) = true ∧ Reg.isReadWriteData .ekeyLen = true ∧
    Reg.isReadWriteData (.iv 0) = true := by decide

theorem witness_KeyWordWriteClearsKeysValid : keyed.eng = .idle ∧ keyed.keysValid = true := by decide

theorem witness_ReadOnlyAndReservedIgnoreWrites :
    v1Fields.eng = .idle ∧
    (0x0B0, v1Fields.digest[4]) ∈ [((0x004 : Nat), v1Fields.ctrlWord), (0x0B0, v1Fields.digest[4])] := by decide

/-- A narrow access at the last offset and a misaligned one, by a read and by a write. -/
theorem witness_BusErrorChangesNoRegister :
    (∃ s : State, engineTurn s = false ∧ s.pending = .bus (.read (Config.baseAddr + 0x0FC) 2) :: []) ∧
    (∃ s : State, engineTurn s = false ∧ s.pending = .bus (.write (Config.baseAddr + 0x0FF) 4 5#32) :: []) ∧
    (0x0FF : Nat) % 4 ≠ 0 :=
  ⟨⟨{ keyed with pending := [.bus (.read (Config.baseAddr + 0x0FC) 2)] }, rfl, rfl⟩,
   ⟨{ running 0x50#32 1 keyed with pending := [.bus (.write (Config.baseAddr + 0x0FF) 4 5#32)] }, rfl, rfl⟩, by decide⟩

theorem witness_TransactionOutsideWindowStops : Config.baseAddr + 0x100 ≤ Config.baseAddr + 0x100 := Nat.le_refl _

theorem witness_ReadsHaveNoSideEffects : keyed.eng = .idle ∧ (0x074 : Nat) ≠ 0x008 ∧ (0x074 : Nat) ≠ 0x00C := by decide

/-- A register in the write set, one outside it, a key register under ZEROIZE, a running illegal word; a running block
that has the invariant. -/
theorem witness_BusyReadsOfWriteSetAreFree :
    ((running 0x50#32 1 keyed).eng = .busy 0x50#32 ∧ decodeWord 0x50#32 = .ok .encodeToken) ∧
    (wordWriteSet 0x50#32 (.token 0) = true ∧ Reg.isKey (.token 0) = false) ∧
    wordWriteSet 0x50#32 .timeSec = false ∧
    (wordWriteSet 0x02#32 (.ekey 7) = true ∧ Reg.isKey (.ekey 7) = true) ∧
    ((running 0x120#32 1 keyed).eng = .busy 0x120#32 ∧ legalWord 0x120#32 = false) ∧
    Inv (running 0x50#32 1 State.reset) :=
  ⟨by decide, by decide, by decide, by decide, by decide, ⟨by decide, by decide, .inl ⟨rfl, rfl⟩⟩⟩

theorem witness_BusyWritesAreDropped :
    (running 0x50#32 1 keyed).eng = .busy 0x50#32 ∧ ((0x0FC : Nat) % 4 = 0 ∧ (0x0FC : Nat) ≤ 0x0FC) ∧
    ((2 : Nat) ≠ 4 ∨ (0x074 : Nat) % 4 ≠ 0) := by decide

theorem witness_BusNeverRevealsKeyBytes :
    sameButKeys keyed { keyed with ek := Vector.replicate 8 0#32 } ∧
    ∃ t, busTransaction (.read (Config.baseAddr + 0x020) 4) keyed = .next t :=
  ⟨⟨_, _, rfl⟩, ⟨_, by rw [busTransaction, windowOffset_base 0x020 (by decide)]⟩⟩

theorem witness_ResetValues : (0x000 : Nat) % 4 = 0 ∧ (0x0FC : Nat) % 4 = 0 ∧ (0x0FC : Nat) ≤ 0x0FC := by decide

theorem witness_ResetAbandonsRunningCommand :
    ∃ s : State, engineTurn s = false ∧ s.busy = true ∧ s.pending = .reset [(0x008, 0x51#32)] :: [.wait] :=
  ⟨{ running 0x50#32 1 keyed with pending := [.reset [(0x008, 0x51#32)], .wait] }, rfl, rfl, rfl⟩

theorem witness_StepKeepsInvariant :
    Inv (running 0x10#32 0 State.reset) ∧ ∃ t, step (running 0x10#32 0 State.reset) = .next t :=
  ⟨⟨by decide, by decide, .inl ⟨rfl, rfl⟩⟩, ⟨_, rfl⟩⟩

theorem witness_KeyStoreFixedWhileKeysValid :
    ∃ t, step (running 0x01#32 0 keyed) = .next t ∧ t.keysValid = true := by
  obtain ⟨t, h, hk⟩ :=
    exists_of_ends (o := step (running 0x01#32 0 keyed)) (p := fun t => t.keysValid) (by decide +kernel)
  exact ⟨t, h, hk⟩

theorem witness_RunningCommandOperandsAreStable :
    ∃ s : State, s.busy = true ∧ engineTurn s = false ∧ (∀ lost rest, s.pending ≠ .reset lost :: rest) ∧
      ∃ t, step s = .next t :=
  ⟨{ running 0x50#32 1 keyed with pending := [.wait] }, rfl, rfl, (by intro _ _ h; cases h), ⟨_, rfl⟩⟩

/-- OVR set by a dropped write, and cleared by a reset. -/
theorem witness_OverrunIsSticky :
    (∃ s t : State, step s = .next t ∧ s.ovr = false ∧ t.ovr = true) ∧
    ∃ s t : State, step s = .next t ∧ s.ovr = true ∧ t.ovr = false := by
  constructor
  · refine ⟨{ running 0x50#32 1 keyed with pending := [.bus (.write (Config.baseAddr + 0x074) 4 5#32)] },
      memWrite 0x074 4 5#32 (running 0x50#32 0 keyed), ?_, rfl, rfl⟩
    have h : ∀ s : State, busTransaction (.write (Config.baseAddr + 0x074) 4 5#32) s = .next (memWrite 0x074 4 5#32 s) :=
      fun s => by rw [busTransaction, windowOffset_base 0x074 (by decide)]
    exact h { running 0x50#32 0 keyed with pending := [] }
  · exact ⟨{ keyed with ovr := true, pending := [.reset []] }, _, rfl, rfl, rfl⟩

theorem witness_ResultKeptUntilNextCompletion :
    ∃ s t : State, step s = .next t ∧ engineTurn s = false ∧ ∀ lost rest, s.pending ≠ .reset lost :: rest :=
  ⟨{ keyed with pending := [.wait] }, _, rfl, rfl, (by intro _ _ h; cases h)⟩

/-- A WAIT on a running command, and a running command under one host write and one read at the window's ends. -/
theorem witness_EveryAcceptedCommandCompletes :
    (∃ s : State, s.busy = true ∧ s.pending = .wait :: [] ∧ s.lag = 3) ∧
    ∃ s : State, s.busy = true ∧ s.pending ≠ [] ∧
      ∀ inp, inp ∈ s.pending → ∀ b, inp = .bus b →
        ∃ off, off ≤ 0x0FF ∧ ((∃ n, b = .read (Config.baseAddr + off) n) ∨
          ∃ n v, b = .write (Config.baseAddr + off) n v) := by
  refine ⟨⟨{ running 0x50#32 3 keyed with pending := [.wait] }, rfl, rfl, rfl⟩,
    ⟨{ running 0x50#32 3 keyed with
        pending := [.bus (.write (Config.baseAddr + 0x000) 4 5#32), .bus (.read (Config.baseAddr + 0x0FF) 1)] },
      rfl, (by intro h; cases h), ?_⟩⟩
  intro inp h b hb
  rcases List.mem_cons.mp h with rfl | h
  · cases hb; exact ⟨0x000, by decide, .inr ⟨4, 5#32, rfl⟩⟩
  · rcases List.mem_cons.mp h with rfl | h
    · cases hb; exact ⟨0x0FF, by decide, .inl ⟨1, rfl⟩⟩
    · cases h

end Sys2Proof.Tests
end

namespace Sys2Proof.Machine

/-! ## Result codes and their ERR_INFO (R240, R241 60_exceptions.md) -/

theorem resultInfoAgree_ok : resultInfoAgree ResultCode.ok.bits 0#32 := .inl ⟨rfl, rfl⟩

theorem resultInfoAgree_range : resultInfoAgree ResultCode.range.bits rangeInfo :=
  .inr (.inr (.inr (.inl ⟨rfl, rfl⟩)))

theorem resultInfoAgree_authFail : resultInfoAgree ResultCode.authFail.bits 0#32 :=
  .inr (.inr (.inr (.inr (.inl ⟨rfl, rfl⟩))))

theorem resultInfoAgree_noKeys : resultInfoAgree ResultCode.noKeys.bits 0#32 :=
  .inr (.inr (.inr (.inr (.inr (.inl ⟨rfl, rfl⟩)))))

theorem resultInfoAgree_illegalCmd {w : Word} (h : legalWord w = false) :
    resultInfoAgree ResultCode.illegalCmd.bits w :=
  .inr (.inr (.inr (.inr (.inr (.inr ⟨rfl, h⟩)))))

/-- A failing COMMIT_KEYS has at least one bad length, so ERR_INFO is 1, 2 or 3 (R101 40_control.md). -/
theorem resultInfoAgree_keyLength {eBad iBad : Bool} (h : (eBad || iBad) = true) :
    resultInfoAgree ResultCode.keyLength.bits (keyLengthInfo eBad iBad) := by
  refine .inr (.inl ⟨rfl, ?_⟩)
  revert eBad iBad
  decide

/-- The cause and the index of a FORMAT failure do not overlap (R197 44_base64.md). -/
theorem formatCharInfo_eq {j : Nat} (h : j < 38) : formatCharInfo j = BitVec.ofNat 32 (256 * j + 3) := by
  have key : ∀ k : Fin 38, formatCharInfo k = BitVec.ofNat 32 (256 * k + 3) := by decide
  exact key ⟨j, h⟩

/-- The decode checks report cause 1, or cause 3 with an index below 38 (R196, R197 44_base64.md). -/
theorem resultInfoAgree_format {s : State} {info : Word} (h : formatFailure s = some info) :
    resultInfoAgree ResultCode.format.bits info := by
  refine .inr (.inr (.inl ⟨rfl, ?_⟩))
  rcases formatFailure_cases s with ⟨_, hf⟩ | ⟨_, j, _, hj, hf⟩ | ⟨_, _, hf⟩
  · exact .inl (Option.some.inj (h.symm.trans hf))
  · exact .inr ⟨j, hj, (Option.some.inj (h.symm.trans hf)).trans (formatCharInfo_eq hj)⟩
  · exact absurd (h.symm.trans hf) (Option.some_ne_none info)

/-! ## Illegal words (R81, R84 30_encoding.md) -/

/-- The opcode map and R84's list of reserved opcodes part the bytes between them. -/
theorem instrOfOpcode_isSome (b : BitVec 8) : (instrOfOpcode b).isSome = !reservedOpcode b.toNat := by
  revert b; decide +kernel

/-- R84's legality by the two fields of R80: MBZ is zero and the opcode is mapped. -/
theorem legalWord_iff_fields (w : Word) :
    legalWord w = true ↔ mbzField w = 0#24 ∧ (instrOfOpcode (opcodeField w)).isSome = true := by
  have hop : (opcodeField w).toNat = w.toNat % 0x100 := by simp [opcodeField]
  have hmbz : mbzField w = 0#24 ↔ w.toNat < 0x100 := by
    rw [← BitVec.toNat_inj]
    simp only [mbzField, BitVec.extractLsb'_toNat, Nat.shiftRight_eq_div_pow, BitVec.toNat_ofNat]
    have := w.isLt
    omega
  simp [legalWord, mbzClear, instrOfOpcode_isSome, hop, hmbz]

/-- A word the decoder refuses is illegal by R84. -/
theorem legalWord_of_decodeWord_error {w : Word} {e : Illegal} (h : decodeWord w = .error e) :
    legalWord w = false := by
  rw [Bool.eq_false_iff, ne_eq, legalWord_iff_fields]
  rcases decodeWord_cases w with ⟨hm, _⟩ | ⟨_, ho, _⟩ | ⟨i, _, _, hd⟩
  · exact fun hl => hm hl.1
  · simp [ho]
  · simp [hd] at h

/-! ## What a step may do to the key store -/

/-- If KEYS_VALID is 1 in `t`, then from `s` to `t` the key store has not changed, and either KEYS_VALID was 1 already
or both key lengths were 32 (R44 10_state.md, R101 40_control.md). -/
def KeysCommitted (s t : State) : Prop :=
  t.keysValid = true →
    t.keyStore = s.keyStore ∧ (s.keysValid = true ∨ (s.ekeyLen = 32#32 ∧ s.ikeyLen = 32#32))

theorem KeysCommitted.of_kept {s t : State} (hv : t.keysValid = s.keysValid) (hk : t.keyStore = s.keyStore) :
    KeysCommitted s t := fun h => ⟨hk, .inl (hv ▸ h)⟩

theorem KeysCommitted.of_invalid {s t : State} (hv : t.keysValid = false) : KeysCommitted s t :=
  fun h => absurd (hv.symm.trans h) Bool.false_ne_true

/-- Committed keys keep their lengths of 32 over such a change. -/
theorem KeysCommitted.lengths {s t : State} (h : KeysCommitted s t)
    (hs : s.keysValid = true → s.ekeyLen = 32#32 ∧ s.ikeyLen = 32#32) (ht : t.keysValid = true) :
    t.ekeyLen = 32#32 ∧ t.ikeyLen = 32#32 := by
  obtain ⟨hk, hl⟩ := h ht
  simp only [State.keyStore, Prod.mk.injEq] at hk
  obtain ⟨-, -, he, hi⟩ := hk
  rw [he, hi]
  exact hl.elim hs id

/-! ## What every command does (R243 60_exceptions.md) -/

/-- The outcome `o` of a command run on `s` is a completion: RESULT and ERR_INFO agree, IRQ_EN stands, and the keys are
changed only as `KeysCommitted` allows. -/
def CompletesFrom (s : State) (o : Host.Outcome State Fault Refusal) : Prop :=
  ∃ u code info, o = .next (State.complete code info u) ∧ resultInfoAgree code.bits info ∧
    u.irqEn = s.irqEn ∧ KeysCommitted s u

/-- A completion whose writes leave IRQ_EN, KEYS_VALID and the key store alone. -/
theorem CompletesFrom.finish {s u : State} {code : ResultCode} {info : Word} (ha : resultInfoAgree code.bits info)
    (hi : u.irqEn = s.irqEn) (hv : u.keysValid = s.keysValid) (hk : u.keyStore = s.keyStore) :
    CompletesFrom s (finish code info u) :=
  ⟨u, code, info, rfl, ha, hi, .of_kept hv hk⟩

/-- Behind the key gate it is enough that the command completes on committed keys (R103 40_control.md). -/
theorem CompletesFrom.keyGate {s : State} {b : Bool} {body : State → Host.Outcome State Fault Refusal}
    (h : CompletesFrom s (body s)) : CompletesFrom s (keyGate b s body) := by
  unfold Machine.keyGate
  split
  · exact h
  · cases b <;> exact .finish resultInfoAgree_noKeys rfl rfl rfl

theorem execCommitKeys_completes (s : State) : CompletesFrom s (execCommitKeys s) := by
  unfold execCommitKeys
  extract_lets eBad iBad
  split
  next hbad => exact ⟨_, _, _, rfl, resultInfoAgree_keyLength hbad, rfl, .of_invalid rfl⟩
  next hgood =>
    have hlen : s.ekeyLen = 32#32 ∧ s.ikeyLen = 32#32 := by
      simpa [eBad, iBad, ← BitVec.toNat_inj] using hgood
    exact ⟨_, _, _, rfl, resultInfoAgree_ok, rfl, fun _ => ⟨rfl, .inr hlen⟩⟩

theorem execZeroize_completes (s : State) : CompletesFrom s (execZeroize s) :=
  ⟨_, _, _, rfl, resultInfoAgree_ok, rfl, .of_invalid rfl⟩

theorem execTimeEnc_completes (s : State) : CompletesFrom s (execTimeEnc s) := by
  unfold execTimeEnc
  split
  · exact .finish resultInfoAgree_range rfl rfl rfl
  · exact .finish resultInfoAgree_ok rfl rfl rfl

theorem execHmacPad_completes (s : State) : CompletesFrom s (execHmacPad s) :=
  .keyGate (.finish resultInfoAgree_ok rfl rfl rfl)

theorem execSigGen_completes (s : State) : CompletesFrom s (execSigGen s) :=
  .keyGate (.finish resultInfoAgree_ok rfl rfl rfl)

theorem execSigChk_completes (s : State) : CompletesFrom s (execSigChk s) := by
  refine .keyGate ?_
  extract_lets d s1
  split
  · exact .finish resultInfoAgree_ok rfl rfl rfl
  · exact .finish resultInfoAgree_authFail rfl rfl rfl

theorem execB64Dec_completes (s : State) : CompletesFrom s (execB64Dec s) := by
  unfold execB64Dec
  split
  next hf => exact .finish (resultInfoAgree_format hf) rfl rfl rfl
  next => exact .finish resultInfoAgree_ok rfl rfl rfl

theorem execEncodeToken_completes (s : State) : CompletesFrom s (execEncodeToken s) := by
  refine .keyGate ?_
  split
  · exact .finish resultInfoAgree_range rfl rfl rfl
  · extract_lets iv pad pb enc ds sig tok
    exact .finish resultInfoAgree_ok (by simp) (by simp) (by simp [State.keyStore])

theorem execDecodeToken_completes (s : State) : CompletesFrom s (execDecodeToken s) := by
  refine .keyGate ?_
  split
  next hf => exact .finish (resultInfoAgree_format hf) rfl rfl rfl
  next =>
    extract_lets msg iv enc sig pad pb ds confirm s1
    have hirq : s1.irqEn = s.irqEn := by simp [s1]
    have hvalid : s1.keysValid = s.keysValid := by simp [s1]
    have hstore : s1.keyStore = s.keyStore := by simp [s1, State.keyStore]
    split
    · exact .finish resultInfoAgree_ok hirq hvalid hstore
    · exact .finish resultInfoAgree_authFail hirq hvalid hstore

/-- Every command completes, with one of the results of R240. -/
theorem exec_completes (i : Instr) (s : State) : CompletesFrom s (exec i s) := by
  cases i with
  | nop => exact .finish resultInfoAgree_ok rfl rfl rfl
  | commitKeys => exact execCommitKeys_completes s
  | zeroize => exact execZeroize_completes s
  | timeEnc => exact execTimeEnc_completes s
  | timeDec => exact .finish resultInfoAgree_ok rfl rfl rfl
  | hmacPad => exact execHmacPad_completes s
  | sigGen => exact execSigGen_completes s
  | sigChk => exact execSigChk_completes s
  | xorMask => exact .finish resultInfoAgree_ok rfl rfl rfl
  | xorUnmask => exact .finish resultInfoAgree_ok rfl rfl rfl
  | b64Enc => exact .finish resultInfoAgree_ok rfl rfl rfl
  | b64Dec => exact execB64Dec_completes s
  | encodeToken => exact execEncodeToken_completes s
  | decodeToken => exact execDecodeToken_completes s

/-- The completion of the latched word, legal or not, is one of R243 with a result of R240. -/
theorem engineStep_completes {s t : State} (h : step s = .next t) (he : engineTurn s = true) :
    CompletesFrom s (.next t) := by
  rcases step_cases s t h with ⟨_, w, _, ⟨i, _, hx⟩ | ⟨⟨e, hd⟩, rfl⟩⟩ | ⟨hf, _⟩
  · exact hx ▸ exec_completes i s
  · exact .finish (resultInfoAgree_illegalCmd (legalWord_of_decodeWord_error hd)) rfl rfl rfl
  · simp [he] at hf

/-! ## What the outside world's turn does -/

/-- The outside world's turn is a reset, an admitted write, or touches the model's own fields only. -/
theorem hostStep_cases {s t : State} (h : step s = .next t) (he : engineTurn s = false) :
    (∃ lost rest, s.pending = .reset lost :: rest ∧ t = { State.reset with pending := rest, draws := s.draws }) ∨
    (∃ l n p a, t = { s with lag := l, draws := n, pending := p, resp := a }) ∨
    ∃ off v l p, t = { writeEffect off v { s with lag := l, pending := p } with resp := .writeDone } := by
  rcases step_cases s t h with ⟨hf, _⟩ | ⟨_, ⟨_, rfl⟩ | ⟨inp, rest, s', hp, rfl, hin⟩⟩
  · simp [he] at hf
  · exact .inr (.inl ⟨_, _, _, _, rfl⟩)
  · rcases hin with ⟨off, width, _, _, rfl⟩ | ⟨off, width, v, _, _, rfl⟩ | ⟨_, rfl⟩ | ⟨lost, rfl, rfl⟩
    · obtain ⟨a, n, hr⟩ := memRead_frame off width { s with pending := rest, lag := s.lag - 1 }
      exact .inr (.inl ⟨_, _, _, _, hr⟩)
    · rcases memWrite_cases off width v { s with pending := rest, lag := s.lag - 1 } with ⟨_, hw⟩ | ⟨_, _, _, hw⟩
      · exact .inr (.inl ⟨_, _, _, _, hw⟩)
      · exact .inr (.inr ⟨_, _, _, _, hw⟩)
    · obtain ⟨a, n, p, hw⟩ := waitStatus_frame { s with pending := rest, lag := s.lag - 1 }
      exact .inr (.inl ⟨_, _, _, _, hw⟩)
    · exact .inl ⟨lost, rest, hp, rfl⟩

/-- No host write touches RESULT or ERR_INFO (R25, R26 10_state.md). -/
theorem writeReg_result_errInfo (r : Reg) (v : Word) (s : State) :
    (writeReg r v s).result = s.result ∧ (writeReg r v s).errInfo = s.errInfo := by
  cases r with
  | status => simp [writeReg, writeStatus_eq]
  | _ => exact ⟨rfl, rfl⟩

/-- A key or key-length write clears KEYS_VALID, and no other write touches it or the key store (R44 10_state.md). -/
theorem writeReg_keysCommitted (r : Reg) (v : Word) (s : State) : KeysCommitted s (writeReg r v s) := by
  cases r with
  | ekeyLen | ikeyLen | ekey _ | ikey _ => exact .of_invalid rfl
  | status => exact .of_kept (by simp [writeReg, writeStatus_eq]) (by simp [writeReg, writeStatus_eq, State.keyStore])
  | _ => exact .of_kept rfl rfl

/-- Acceptance clears DONE and no other write sets it, so DONE is 0 while a command runs (R25 10_state.md). -/
theorem writeReg_busy_not_done {s : State} (hs : s.busy = true → s.done = false) (r : Reg) (v : Word) :
    (writeReg r v s).busy = true → (writeReg r v s).done = false := by
  cases r with
  | cmd => exact fun _ => rfl
  | status =>
    intro hb
    have hb' : s.busy = true := by simpa [writeReg, writeStatus_eq, State.busy] using hb
    simp [writeReg, writeStatus_eq, hs hb']
  | _ => exact hs

/-- A property that a dropped write and every register write give to the state they leave holds after any admitted
write. -/
theorem writeEffect_induction {P : State → Prop} {s : State} (hkept : P s) (hdrop : P s.dropWrite) (off : Nat)
    (v : Word) (hreg : ∀ r, P (writeReg r v s)) : P (writeEffect off v s) := by
  rcases writeEffect_cases off v s with ⟨_, _, _, h⟩ | ⟨_, _, h⟩ | ⟨r, _, _, h⟩
  · rw [h]; exact hdrop
  · rw [h]; exact hkept
  · rw [h]; exact hreg r

theorem writeEffect_result_errInfo (off : Nat) (v : Word) (s : State) :
    (writeEffect off v s).result = s.result ∧ (writeEffect off v s).errInfo = s.errInfo :=
  writeEffect_induction (P := fun t => t.result = s.result ∧ t.errInfo = s.errInfo) ⟨rfl, rfl⟩ ⟨rfl, rfl⟩ off v
    fun r => writeReg_result_errInfo r v s

theorem writeEffect_keysCommitted (off : Nat) (v : Word) (s : State) : KeysCommitted s (writeEffect off v s) :=
  writeEffect_induction (.of_kept rfl rfl) (.of_kept rfl rfl) off v fun r => writeReg_keysCommitted r v s

theorem writeEffect_busy_not_done {s : State} (hs : s.busy = true → s.done = false) (off : Nat) (v : Word) :
    (writeEffect off v s).busy = true → (writeEffect off v s).done = false :=
  writeEffect_induction (P := fun t => t.busy = true → t.done = false) hs hs off v
    fun r => writeReg_busy_not_done hs r v

/-- The outside world changes RESULT and ERR_INFO by a reset only (R26 10_state.md, R245 60_exceptions.md). -/
theorem hostStep_result_errInfo {s t : State} (h : step s = .next t) (he : engineTurn s = false)
    (hr : ∀ lost rest, s.pending ≠ .reset lost :: rest) : t.result = s.result ∧ t.errInfo = s.errInfo := by
  rcases hostStep_cases h he with ⟨lost, rest, hp, _⟩ | ⟨l, n, p, a, rfl⟩ | ⟨off, v, l, p, rfl⟩
  · exact absurd hp (hr lost rest)
  · exact ⟨rfl, rfl⟩
  · exact writeEffect_result_errInfo off v { s with lag := l, pending := p }

theorem step_keysCommitted {s t : State} (h : step s = .next t) : KeysCommitted s t := by
  cases he : engineTurn s with
  | true =>
    obtain ⟨u, code, info, ht, -, -, hk⟩ := engineStep_completes h he
    cases ht
    exact hk
  | false =>
    rcases hostStep_cases h he with ⟨_, _, _, rfl⟩ | ⟨l, n, p, a, rfl⟩ | ⟨off, v, l, p, rfl⟩
    · exact .of_invalid rfl
    · exact .of_kept rfl rfl
    · exact writeEffect_keysCommitted off v { s with lag := l, pending := p }

/-! ## The invariant -/

/-- Settles O54: reset leaves the engine Idle, KEYS_VALID 0 and the pair OK and 0. -/
theorem invariantHoldsAtReset : Obligations.InvariantHoldsAtReset where
  busy_not_done := fun _ => rfl
  committed_lengths := fun h => absurd h Bool.false_ne_true
  result_info := resultInfoAgree_ok

/-- The engine's turn keeps the invariant: it leaves the block idle with a result of R240. -/
theorem engineStep_inv {s t : State} (hs : Inv s) (h : step s = .next t) (he : engineTurn s = true) : Inv t := by
  have hk : KeysCommitted s t := step_keysCommitted h
  obtain ⟨u, code, info, ht, ha, -, -⟩ := engineStep_completes h he
  cases ht
  exact ⟨fun hb => absurd hb (by simp), hk.lengths hs.committed_lengths, ha⟩

/-- The outside world's turn keeps the invariant. -/
theorem hostStep_inv {s t : State} (hs : Inv s) (h : step s = .next t) (he : engineTurn s = false) : Inv t := by
  have hk : KeysCommitted s t := step_keysCommitted h
  rcases hostStep_cases h he with ⟨_, _, _, rfl⟩ | ⟨l, n, p, a, rfl⟩ | ⟨off, v, l, p, rfl⟩
  · exact ⟨fun _ => rfl, hk.lengths hs.committed_lengths, resultInfoAgree_ok⟩
  · exact ⟨hs.busy_not_done, hk.lengths hs.committed_lengths, hs.result_info⟩
  · obtain ⟨hres, herr⟩ := writeEffect_result_errInfo off v { s with lag := l, pending := p }
    refine ⟨?_, hk.lengths hs.committed_lengths, ?_⟩
    · exact writeEffect_busy_not_done (s := { s with lag := l, pending := p }) hs.busy_not_done off v
    · show resultInfoAgree (writeEffect off v _).result (writeEffect off v _).errInfo
      rw [hres, herr]
      exact hs.result_info

/-- Settles O55, by the two kinds of turn a step can be. -/
theorem stepKeepsInvariant : Obligations.StepKeepsInvariant := by
  intro s t hs h
  cases he : engineTurn s with
  | true => exact engineStep_inv hs h he
  | false => exact hostStep_inv hs h he

/-- Settles O56: a step after which KEYS_VALID is 1 has committed or kept the keys. -/
theorem keyStoreFixedWhileKeysValid : Obligations.KeyStoreFixedWhileKeysValid :=
  fun _ _ h hv => (step_keysCommitted h hv).1

/-- Settles O59: what is no completion is the outside world's turn. -/
theorem resultKeptUntilNextCompletion : Obligations.ResultKeptUntilNextCompletion :=
  fun _ _ h he hr => hostStep_result_errInfo h he hr

/-! ## The engine's turn and the outside world's -/

/-- On a busy engine whose turn has come a step is the engine's. -/
theorem step_eq_runEngine {s : State} {w : Word} (hw : s.eng = .busy w) (ht : s.lag = 0 ∨ s.pending = []) :
    step s = runEngine s := by
  have : engineTurn s = true := by simpa [engineTurn, State.busy, hw] using ht
  simp [step, this]

/-- While the running command outlasts the next input a step takes that input. -/
theorem step_eq_takeInput {s : State} {inp : Input} {rest : List Input} (hp : s.pending = inp :: rest)
    (hl : s.lag ≠ 0) : step s = takeInput inp { s with pending := rest, lag := s.lag - 1 } := by
  have : engineTurn s = false := by simp [engineTurn, hl, hp]
  simp [step, this, runHost, hp]

/-- The engine runs the command its latched word decodes to. -/
theorem runEngine_of_decode {s : State} {w : Word} {i : Instr} (hw : s.eng = .busy w) (hd : decodeWord w = .ok i) :
    runEngine s = exec i s := by
  simp [runEngine, hw, hd]

/-- Settles O5. -/
theorem stepRunsTheLatchedCommand : Obligations.StepRunsTheLatchedCommand := by
  intro s w hw
  refine ⟨fun i hd ht => ?_, fun inp rest hp hl => step_eq_takeInput hp hl⟩
  rw [step_eq_runEngine hw ht, runEngine_of_decode hw hd]

/-! ## Accesses of one register -/

/-- A write to a register of an idle block, or to CTRL or STATUS at any time, is carried out (R273
70_reset_and_hazards.md). -/
theorem memWrite_carriedOut {r : Reg} {s : State} (h : s.busy = false ∨ writableWhileBusy (some r) = true)
    (v : Word) : memWrite r.offset 4 v s = { writeReg r v s with resp := .writeDone } := by
  obtain ⟨ha, hw⟩ := offset_admitted r
  have : (s.busy && !writableWhileBusy (some r)) = false := by
    rcases h with h | h <;> simp [h]
  simp [memWrite, admitted_word _ ha hw, admittedWrite, writeEffect, this]

theorem memRead_of_not_free {r : Reg} {s : State} (h : readIsFree r s = false) :
    memRead r.offset 4 s = { s with resp := .readData (readReg r s) } := by
  simp [memRead_register, h]

/-- No read of an idle block is free (R274 70_reset_and_hazards.md). -/
theorem readIsFree_of_idle {s : State} (h : s.eng = .idle) (r : Reg) : readIsFree r s = false := by
  simp [readIsFree, h]

theorem memRead_of_idle {s : State} (h : s.eng = .idle) (r : Reg) :
    memRead r.offset 4 s = { s with resp := .readData (readReg r s) } :=
  memRead_of_not_free (readIsFree_of_idle h r)

/-- The response to a read of a register of an idle block is the register's value. -/
theorem memRead_resp_of_idle {s : State} (h : s.eng = .idle) (r : Reg) :
    (memRead r.offset 4 s).resp = .readData (readReg r s) :=
  congrArg State.resp (memRead_of_idle h r)

/-- ID is in no write set, so its reads are never free. -/
theorem readIsFree_id (s : State) : readIsFree .id s = false := by
  have hset : ∀ i, inWriteSet i .id = false := fun i => by cases i <;> rfl
  unfold readIsFree
  split
  · rfl
  · unfold wordWriteSet
    split <;> simp [hset]

/-- The bus response is shown by no register. -/
@[simp] theorem readReg_resp (r : Reg) (s : State) (a : BusResponse) :
    readReg r { s with resp := a } = readReg r s := by
  cases r <;> rfl

/-! ## STATUS and CTRL -/

/-- The five flags of STATUS. -/
theorem statusWord_flags (s : State) :
    s.statusWord.getLsbD 0 = s.busy ∧ s.statusWord.getLsbD 1 = s.done ∧ s.statusWord.getLsbD 2 = s.keysValid ∧
    s.statusWord.getLsbD 3 = s.authOk ∧ s.statusWord.getLsbD 4 = s.ovr := by
  simp only [State.statusWord, BitVec.getLsbD_append, BitVec.getLsbD_ofBool]
  simp

/-- Above its five flags STATUS holds RESULT between reserved bits. -/
theorem statusWord_above_flags (s : State) {start len : Nat} (h : 5 ≤ start) :
    s.statusWord.extractLsb' start len = (0#20 ++ s.result ++ 0#3).extractLsb' (start - 5) len := by
  unfold State.statusWord
  iterate 5 rw [BitVec.extractLsb'_append_eq_of_le (by omega)]
  simp only [Nat.sub_sub]

theorem statusWord_fields (s : State) :
    s.statusWord.extractLsb' 5 3 = 0#3 ∧ s.statusWord.extractLsb' 8 4 = s.result ∧
    s.statusWord.extractLsb' 12 20 = 0#20 := by
  simp only [statusWord_above_flags, Nat.reduceLeDiff, Nat.reduceSub]
  refine ⟨?_, ?_, ?_⟩
  · rw [BitVec.extractLsb'_append_eq_right]
  · rw [BitVec.extractLsb'_append_eq_of_le (by decide), BitVec.extractLsb'_append_eq_right]
  · rw [BitVec.extractLsb'_append_eq_of_le (by decide), BitVec.extractLsb'_append_eq_left]

/-- Settles O41: R25's fields one by one, and the write-1-to-clear rule of both clearable bits. -/
theorem statusFieldsAndClears : Obligations.StatusFieldsAndClears := by
  refine ⟨fun s => ?_, fun s v => ?_⟩
  · obtain ⟨hbusy, hdone, hkeys, hauth, hovr⟩ := statusWord_flags s
    exact ⟨hbusy, hdone, hkeys, hauth, hovr, statusWord_fields s⟩
  · have hw : memWrite Reg.status.offset 4 v s = _ := memWrite_carriedOut (.inr rfl) v
    rw [writeReg, writeStatus_eq] at hw
    exact hw

theorem ctrlWord_fields (s : State) : s.ctrlWord.getLsbD 0 = s.irqEn ∧ s.ctrlWord.extractLsb' 1 31 = 0#31 := by
  refine ⟨?_, BitVec.extractLsb'_append_eq_left⟩
  simp only [State.ctrlWord, BitVec.getLsbD_append, BitVec.getLsbD_ofBool]
  simp

/-- Every command keeps IRQ_EN and sets DONE, so after it `irq` is IRQ_EN (R243, R246 60_exceptions.md). -/
theorem exec_irq {i : Instr} {s t : State} (h : exec i s = .next t) : t.irqEn = s.irqEn ∧ t.irq = s.irqEn := by
  obtain ⟨u, code, info, ht, -, hi, -⟩ := exec_completes i s
  cases ht.symm.trans h
  simp [State.irq, hi]

/-- Settles O42. -/
theorem ctrlGatesTheInterrupt : Obligations.CtrlGatesTheInterrupt := by
  refine ⟨rfl, fun s v => ⟨?_, ctrlWord_fields s⟩, fun i s t h => exec_irq h, fun s => ?_, fun s hs hb => ?_⟩
  · exact memWrite_carriedOut (r := .ctrl) (.inr rfl) v
  · exact ⟨fun h => by simp [State.irq, h], fun h => by simp [State.irq, h]⟩
  · simp [State.irq, hs.busy_not_done hb]

/-! ## Data registers (R21 10_state.md) -/

/-- A read-write data register shows what was written. -/
theorem readReg_writeReg_same {r : Reg} (hr : r.isReadWriteData = true) (v : Word) (s : State) :
    readReg r (writeReg r v s) = v := by
  cases r with
  | iv k | token k => simp [readReg, writeReg]
  | ekeyLen | ikeyLen | timeSec | timeUsec | priceHi | priceLo | encPriceHi | encPriceLo | sig | tokenLen => rfl
  | _ => exact absurd hr Bool.false_ne_true

/-- A write to a read-write data register is seen in no other register but STATUS. -/
theorem readReg_writeReg_of_ne {q r : Reg} (hr : r.isReadWriteData = true) (hne : q ≠ r) (hq : q ≠ .status)
    (v : Word) (s : State) : readReg q (writeReg r v s) = readReg q s := by
  cases r with
  | iv k =>
    cases q with
    | iv j =>
      have : k.val ≠ j.val := fun h => hne (congrArg Reg.iv (Fin.ext h.symm))
      simp [readReg, writeReg, Vector.getElem_set_ne, this]
    | status => exact absurd rfl hq
    | _ => rfl
  | token k =>
    cases q with
    | token j =>
      have : k.val ≠ j.val := fun h => hne (congrArg Reg.token (Fin.ext h.symm))
      simp [readReg, writeReg, Vector.getElem_set_ne, this]
    | status => exact absurd rfl hq
    | _ => rfl
  | ekeyLen | ikeyLen | timeSec | timeUsec | priceHi | priceLo | encPriceHi | encPriceLo | sig | tokenLen =>
    cases q <;> simp_all [readReg, writeReg, State.ctrlWord]
  | _ => exact absurd hr Bool.false_ne_true

/-- What a write to a read-write data register leaves alone besides the registers: the keys, and of the engine and
STATUS everything but KEYS_VALID, which a key-length write clears (R44 10_state.md). -/
theorem writeReg_data_frame {r : Reg} (hr : r.isReadWriteData = true) (v : Word) (s : State) :
    (writeReg r v s).ek = s.ek ∧ (writeReg r v s).ik = s.ik ∧
    (writeReg r v s).keysValid = (s.keysValid && !(r == .ekeyLen || r == .ikeyLen)) ∧
    (writeReg r v s).eng = s.eng ∧ (writeReg r v s).done = s.done ∧ (writeReg r v s).authOk = s.authOk ∧
    (writeReg r v s).ovr = s.ovr ∧ (writeReg r v s).result = s.result := by
  cases r with
  | ekeyLen | ikeyLen => simp [writeReg]
  | timeSec | timeUsec | priceHi | priceLo | encPriceHi | encPriceLo | iv _ | sig | tokenLen | token _ =>
    simp [writeReg]
  | _ => exact absurd hr Bool.false_ne_true

/-- Settles O43. -/
theorem dataRegisterWriteReadsBack : Obligations.DataRegisterWriteReadsBack := by
  intro s r v hidle hr
  obtain ⟨-, -, -, heng, -⟩ := writeReg_data_frame hr v s
  refine ⟨_, memWrite_register r v s hidle, ?_, fun q hne hq => ?_, writeReg_data_frame hr v s⟩
  · refine (memRead_resp_of_idle (s := { writeReg r v s with resp := .writeDone }) (heng.trans hidle) r).trans ?_
    rw [readReg_resp, readReg_writeReg_same hr]
  · rw [readReg_resp, readReg_writeReg_of_ne hr hne hq]

/-! ## Key words -/

/-- Byte `i` of a string of words is in word `i / 4`, most significant byte first (R66 20_memory.md). -/
theorem beBytes_getD {ws : List Word} {i : Nat} (h : i / 4 < ws.length) :
    (beBytes ws).getD i 0#8 = ws[i / 4].extractLsb' (24 - 8 * (i % 4)) 8 := by
  induction ws generalizing i with
  | nil => simp at h
  | cons w ws ih =>
    rw [beBytes_cons]
    by_cases hi : i < 4
    · interval_cases i <;> rfl
    · obtain ⟨j, rfl⟩ := Nat.exists_eq_add_of_le' (Nat.le_of_not_lt hi)
      have hdiv : (j + 4) / 4 = j / 4 + 1 := by omega
      have hj : j / 4 < ws.length := by simpa [hdiv] using h
      rw [List.getD_append_right _ _ _ _ (by simp), beBytes4_length, Nat.add_sub_cancel, ih hj]
      simp [hdiv]

/-- A key whose word `k` is set to `v`, byte by byte. -/
theorem beBytes_set_getD (key : Vector Word 8) (k : Fin 8) (v : Word) {i : Nat} (h : i < 32) :
    (beBytes (key.set k.val v k.isLt).toList).getD i 0#8 =
      if i / 4 = k.val then v.extractLsb' (24 - 8 * (i % 4)) 8 else (beBytes key.toList).getD i 0#8 := by
  rw [beBytes_getD (by simp; omega), beBytes_getD (by simp; omega)]
  split
  next hk => simp [hk]
  next hk => simp [Vector.getElem_set_ne, Ne.symm hk]

/-- Settles O44: both key files alike, by the bytes of a key with one word set. -/
theorem keyWordWriteClearsKeysValid : Obligations.KeyWordWriteClearsKeysValid := by
  intro s k v hidle
  refine ⟨⟨_, memWrite_register (.ekey k) v s hidle, rfl, fun i hi => beBytes_set_getD s.ek k v hi, ?_, rfl⟩,
    ⟨_, memWrite_register (.ikey k) v s hidle, rfl, fun i hi => beBytes_set_getD s.ik k v hi, ?_, rfl⟩⟩
  · exact memRead_resp_of_idle (s := { writeReg (.ekey k) v s with resp := .writeDone }) hidle (.ekey k)
  · exact memRead_resp_of_idle (s := { writeReg (.ikey k) v s with resp := .writeDone }) hidle (.ikey k)

/-! ## Read-only registers and reserved offsets -/

/-- The registers a host write leaves alone (RO in R21 10_state.md). -/
def Reg.isReadOnly : Reg → Bool
  | .id | .errInfo | .tsSec | .tsUsec | .sigCalc | .padHi | .padLo | .digest _ => true
  | _ => false

theorem writeReg_of_isReadOnly {r : Reg} (h : r.isReadOnly = true) (v : Word) (s : State) : writeReg r v s = s := by
  cases r with
  | id | errInfo | tsSec | tsUsec | sigCalc | padHi | padLo | digest _ => rfl
  | _ => exact absurd h Bool.false_ne_true

/-- A write of an idle block to an offset of no register or of a read-only one is ignored (R40 10_state.md). -/
theorem memWrite_ignored {off : Nat} {s : State} (ha : off % 4 = 0) (hw : off ≤ 0x0FC)
    (hoff : (regAt off).all Reg.isReadOnly = true) (hidle : s.eng = .idle) (v : Word) :
    memWrite off 4 v s = { s with resp := .writeDone } := by
  have hb : s.busy = false := s.not_busy_iff.mpr hidle
  have : writeEffect off v s = s := by
    rcases writeEffect_cases off v s with ⟨hbusy, _⟩ | ⟨_, _, h⟩ | ⟨r, hr, _, h⟩
    · simp [hb] at hbusy
    · exact h
    · rw [h, writeReg_of_isReadOnly (by simpa [hr] using hoff)]
  simp [memWrite, admitted_word off ha hw, admittedWrite, this]

/-- A reserved offset reads 0 in every state (R40 10_state.md). -/
theorem memRead_reserved {off : Nat} (ha : off % 4 = 0) (hw : off ≤ 0x0FC) (hoff : regAt off = none) (s : State) :
    memRead off 4 s = { s with resp := .readData 0#32 } := by
  simp [memRead, admitted_word off ha hw, admittedRead, hoff]

/-- Settles O45. -/
theorem readOnlyAndReservedIgnoreWrites : Obligations.ReadOnlyAndReservedIgnoreWrites := by
  refine ⟨fun s off v hidle hmem => ?_, fun s off hmem => ?_, fun s => ?_, fun s r hidle => memRead_of_idle hidle r,
    fun s off v hidle hmem => ?_⟩
  · have key : off % 4 = 0 ∧ off ≤ 0x0FC ∧ (regAt off).all Reg.isReadOnly = true := by
      revert off; decide
    obtain ⟨ha, hw, hoff⟩ := key
    exact memWrite_ignored ha hw hoff hidle v
  · have key : off % 4 = 0 ∧ off ≤ 0x0FC ∧ regAt off = none := by
      revert off; decide
    obtain ⟨ha, hw, hoff⟩ := key
    exact memRead_reserved ha hw hoff s
  · exact memRead_of_not_free (readIsFree_id s)
  · obtain ⟨r, -, hr⟩ := List.mem_map.mp (show (off, v) ∈
      [Reg.ctrl, .cmd, .status, .errInfo, .tsSec, .tsUsec, .sigCalc, .padHi, .padLo, .digest 0, .digest 1, .digest 2,
        .digest 3, .digest 4].map (fun r => (r.offset, readReg r s)) from hmem)
    cases hr
    exact memRead_of_idle hidle r

/-! ## Noninterference of the key bytes (R28 10_state.md) -/

/-- A read answers alike whatever the key bytes are. -/
theorem memRead_sameButKeys {s s' : State} (h : sameButKeys s s') (off width : Nat) :
    sameButKeys (memRead off width s) (memRead off width s') := by
  obtain ⟨a, b, rfl⟩ := h
  refine ⟨a, b, ?_⟩
  unfold memRead
  split
  · unfold admittedRead
    split
    · rfl
    next r _ =>
      rw [readReg_keys, show readIsFree r { s with ek := a, ik := b } = readIsFree r s from rfl]
      split <;> rfl
  · rfl

theorem writeReg_sameButKeys {s s' : State} (h : sameButKeys s s') (r : Reg) (v : Word) :
    sameButKeys (writeReg r v s) (writeReg r v s') := by
  obtain ⟨a, b, rfl⟩ := h
  cases r with
  | ekey k => exact ⟨a.set k.val v k.isLt, b, rfl⟩
  | ikey k => exact ⟨a, b.set k.val v k.isLt, rfl⟩
  | status => exact ⟨a, b, by simp [writeReg, writeStatus_eq]⟩
  | _ => exact ⟨a, b, rfl⟩

theorem writeEffect_sameButKeys {s s' : State} (h : sameButKeys s s') (off : Nat) (v : Word) :
    sameButKeys (writeEffect off v s) (writeEffect off v s') := by
  have hb : s'.busy = s.busy := by obtain ⟨a, b, rfl⟩ := h; rfl
  unfold writeEffect
  rw [hb]
  split
  · obtain ⟨a, b, rfl⟩ := h
    exact ⟨a, b, rfl⟩
  · split
    · exact h
    next r _ => exact writeReg_sameButKeys h r v

theorem memWrite_sameButKeys {s s' : State} (h : sameButKeys s s') (off width : Nat) (v : Word) :
    sameButKeys (memWrite off width v s) (memWrite off width v s') := by
  unfold memWrite
  split
  · obtain ⟨a, b, hab⟩ := writeEffect_sameButKeys h off v
    exact ⟨a, b, by simp [admittedWrite, hab]⟩
  · obtain ⟨a, b, rfl⟩ := h
    exact ⟨a, b, rfl⟩

/-- Settles O51: reads and writes alike keep two states the same but for the key bytes. -/
theorem busNeverRevealsKeyBytes : Obligations.BusNeverRevealsKeyBytes := by
  intro s s' t b h ht
  rcases busTransaction_cases b s with ⟨off, width, ho, rfl, hb⟩ | ⟨off, width, v, ho, rfl, hb⟩ | ⟨addr, hb⟩
  · cases hb.symm.trans ht
    exact ⟨memRead off width s', by simp [busTransaction, ho], memRead_sameButKeys h off width⟩
  · cases hb.symm.trans ht
    exact ⟨memWrite off width v s', by simp [busTransaction, ho], memWrite_sameButKeys h off width v⟩
  · simp [hb] at ht

end Sys2Proof.Machine

namespace Sys2Proof.Machine

/-! ## Transactions that reach no register (R60, R62 20_memory.md) -/

theorem memRead_busError {off width : Nat} (h : width ≠ 4 ∨ off % 4 ≠ 0) (s : State) :
    memRead off width s = { s with resp := .busError 0#32 } := by
  simp [memRead, not_admitted h]

theorem memWrite_busError {off width : Nat} (h : width ≠ 4 ∨ off % 4 ≠ 0) (v : Word) (s : State) :
    memWrite off width v s = { s with resp := .busError 0#32 } := by
  simp [memWrite, not_admitted h]

/-- When the outside world's turn has come a step takes its next input. -/
theorem step_eq_takeInput_of_hostTurn {s : State} {inp : Input} {rest : List Input} (he : engineTurn s = false)
    (hp : s.pending = inp :: rest) : step s = takeInput inp { s with pending := rest, lag := s.lag - 1 } := by
  simp [step, he, runHost, hp]

/-- Settles O46. -/
theorem busErrorChangesNoRegister : Obligations.BusErrorChangesNoRegister := by
  intro s off width v rest he hoff hbad
  refine ⟨fun hp => ?_, fun hp => ?_⟩
  · simp [step_eq_takeInput_of_hostTurn he hp, takeInput, busTransaction, hoff, memRead_busError hbad]
  · simp [step_eq_takeInput_of_hostTurn he hp, takeInput, busTransaction, hoff, memWrite_busError hbad]

theorem windowOffset_eq_none {addr : Nat} (h : addr < Config.baseAddr ∨ Config.baseAddr + 0x100 ≤ addr) :
    windowOffset addr = none :=
  if_neg (by omega)

/-- Settles O47. -/
theorem transactionOutsideWindowStops : Obligations.TransactionOutsideWindowStops := by
  intro s addr width v h
  simp [busTransaction, windowOffset_eq_none h]

/-! ## Repeated reads and writes (R64 20_memory.md) -/

/-- A read of an idle block draws no free value, so it touches the bus response alone. -/
theorem memRead_frame_of_idle {s : State} (h : s.eng = .idle) (off width : Nat) :
    ∃ a, memRead off width s = { s with resp := a } := by
  rcases memRead_cases off width s with ⟨_, hr⟩ | ⟨_, _, _, ⟨_, hr⟩ | ⟨r, _, ⟨hfree, _⟩ | ⟨_, hr⟩⟩⟩
  · exact ⟨_, hr⟩
  · exact ⟨_, hr⟩
  · simp [readIsFree_of_idle h] at hfree
  · exact ⟨_, hr⟩

/-- What a read answers does not depend on the response before it. -/
theorem memRead_of_resp (off width : Nat) (s : State) (a : BusResponse) :
    memRead off width { s with resp := a } = memRead off width s := by
  unfold memRead admittedRead
  have hfree : ∀ r, readIsFree r { s with resp := a } = readIsFree r s := fun _ => rfl
  simp only [hfree, readReg_resp]

/-- Every register write but the one that starts a command is idempotent. -/
theorem writeReg_idem {r : Reg} (hr : r ≠ .cmd) (v : Word) (s : State) :
    writeReg r v (writeReg r v s) = writeReg r v s := by
  cases r with
  | cmd => exact absurd rfl hr
  | status => simp [writeReg, writeStatus_eq]
  | ekey k | ikey k | iv k | token k => simp [writeReg]
  | _ => rfl

/-- Only a write to CMD moves the engine. -/
theorem writeReg_busy {r : Reg} (hr : r ≠ .cmd) (v : Word) (s : State) : (writeReg r v s).busy = s.busy := by
  cases r with
  | cmd => exact absurd rfl hr
  | status => simp [writeReg, writeStatus_eq, State.busy]
  | _ => rfl

/-- A register write neither uses nor sets the bus response. -/
theorem writeReg_resp (r : Reg) (v : Word) (s : State) (a : BusResponse) :
    writeReg r v { s with resp := a } = { writeReg r v s with resp := a } := by
  cases r with
  | status => simp [writeReg, writeStatus_eq]
  | _ => rfl

theorem writeEffect_resp (off : Nat) (v : Word) (s : State) (a : BusResponse) :
    writeEffect off v { s with resp := a } = { writeEffect off v s with resp := a } := by
  have hb : State.busy { s with resp := a } = s.busy := rfl
  unfold writeEffect
  rw [hb]
  split
  · rfl
  · split
    · rfl
    next r _ => exact writeReg_resp r v s a

/-- Whether an admitted write is dropped, ignored or carried out depends on BUSY and the offset alone (R273
70_reset_and_hazards.md, R40 10_state.md). -/
theorem writeEffect_kind_by_busy (off : Nat) (v : Word) (b : Bool) :
    (∀ s : State, s.busy = b → writeEffect off v s = s.dropWrite) ∨
    (∀ s : State, s.busy = b → writeEffect off v s = s) ∨
    ∃ r, regAt off = some r ∧ ∀ s : State, s.busy = b → writeEffect off v s = writeReg r v s := by
  by_cases hd : (b && !writableWhileBusy (regAt off)) = true
  · exact .inl fun s hs => by rw [writeEffect, hs, if_pos hd]
  · cases hr : regAt off with
    | none => exact .inr (.inl fun s hs => by rw [writeEffect, hs, if_neg hd, hr])
    | some r => exact .inr (.inr ⟨r, rfl, fun s hs => by rw [writeEffect, hs, if_neg hd, hr]⟩)

/-- Other than at CMD a write leaves BUSY as it is, so the same write after it is of the same kind. -/
theorem writeEffect_idem {off : Nat} (hoff : regAt off ≠ some .cmd) (v : Word) (s : State) :
    writeEffect off v (writeEffect off v s) = writeEffect off v s := by
  rcases writeEffect_kind_by_busy off v s.busy with h | h | ⟨r, hr, h⟩
  · rw [h s rfl, h s.dropWrite rfl]
    rfl
  · rw [h s rfl, h s rfl]
  · have hne : r ≠ .cmd := fun hc => hoff (hc ▸ hr)
    rw [h s rfl, h _ (writeReg_busy hne v s), writeReg_idem hne]

theorem admitted_iff {off width : Nat} : admitted off width = true ↔ width = 4 ∧ off % 4 = 0 ∧ off ≤ 0x0FC := by
  simp [admitted, and_assoc]

theorem memWrite_idem {off : Nat} (hoff : off ≠ Reg.cmd.offset) (width : Nat) (v : Word) (s : State) :
    memWrite off width v (memWrite off width v s) = memWrite off width v s := by
  unfold memWrite
  split
  next hadm =>
    obtain ⟨-, ha, hw⟩ := admitted_iff.mp hadm
    have hcmd : regAt off ≠ some .cmd := fun h => hoff (offset_of_regAt off .cmd ha hw h)
    simp only [admittedWrite, writeEffect_resp, writeEffect_idem hcmd]
  next => rfl

/-- Settles O48. -/
theorem readsHaveNoSideEffects : Obligations.ReadsHaveNoSideEffects := by
  refine ⟨fun s off width => ?_, fun s off width hidle => ?_, fun s off width v hcmd _ => memWrite_idem hcmd width v s⟩
  · obtain ⟨a, n, h⟩ := memRead_frame off width s
    rw [h]
  · obtain ⟨a, h⟩ := memRead_frame_of_idle hidle off width
    rw [h, memRead_of_resp, h]

end Sys2Proof.Machine

namespace Sys2Proof

/-! ## Decoding against encoding (R80, R81, R83 30_encoding.md) -/

@[simp] theorem mbzField_append (m : BitVec 24) (op : BitVec 8) : mbzField (m ++ op) = m :=
  BitVec.extractLsb'_append_eq_left

@[simp] theorem opcodeField_append (m : BitVec 24) (op : BitVec 8) : opcodeField (m ++ op) = op :=
  BitVec.extractLsb'_append_eq_right

/-- Of all words only a command's encoding has MBZ zero and the command's opcode. -/
theorem eq_encode_iff (w : Word) (i : Instr) : w = encode i ↔ mbzField w = 0#24 ∧ opcodeField w = opcodeOf i := by
  constructor
  · rintro rfl
    simp [encode]
  · rintro ⟨hm, ho⟩
    rw [← word_of_fields w, hm, ho, encode]

/-- Each row of the opcode map holds a command under its own opcode. -/
theorem opcodeMap_row {row : BitVec 8 × Instr} (h : row ∈ opcodeMap) : row.1 = opcodeOf row.2 := by
  revert row
  decide

/-- The map finds a command under its own opcode and under no other. -/
theorem instrOfOpcode_eq_some_iff (op : BitVec 8) (i : Instr) : instrOfOpcode op = some i ↔ op = opcodeOf i := by
  constructor
  · intro h
    obtain ⟨row, hfind, rfl⟩ := Option.map_eq_some_iff.mp h
    have hop : row.1 = op := by simpa using List.find?_some hfind
    rw [← hop, opcodeMap_row (List.mem_of_find?_eq_some hfind)]
  · rintro rfl
    cases i <;> rfl

theorem decodeWord_eq_ok_iff (w : Word) (i : Instr) :
    decodeWord w = .ok i ↔ mbzField w = 0#24 ∧ instrOfOpcode (opcodeField w) = some i := by
  rcases decodeWord_cases w with ⟨hm, hd⟩ | ⟨_, ho, hd⟩ | ⟨j, hm, ho, hd⟩
  · simp [hm, hd]
  · simp [ho, hd]
  · simp [hm, ho, hd]

/-- Settles O2: both sides say that MBZ is zero and OPCODE is the command's. -/
theorem decodeAgreesWithEncode : Obligations.DecodeAgreesWithEncode := by
  intro i w _
  rw [decodeWord_eq_ok_iff, instrOfOpcode_eq_some_iff, eq_encode_iff]

theorem decodeWord_encode (i : Instr) : decodeWord (encode i) = .ok i :=
  (decodeAgreesWithEncode i (encode i) (by cases i <;> rfl)).mpr rfl

/-- Settles O3, by the decoder's and R84's conditions on the two fields. -/
theorem decodeAcceptsExactlyLegalWords : Obligations.DecodeAcceptsExactlyLegalWords := by
  intro w
  simp only [decodeWord_eq_ok_iff, exists_and_left, Machine.legalWord_iff_fields, Option.isSome_iff_exists]

theorem needsKeys_iff (i : Instr) :
    needsKeys i = true ↔ (i = .hmacPad ∨ i = .sigGen ∨ i = .sigChk ∨ i = .encodeToken ∨ i = .decodeToken) := by
  cases i <;> decide

/-- Settles O1: each word of R83 is its command's encoding. -/
theorem opcodeMapWordsDecode : Obligations.OpcodeMapWordsDecode :=
  ⟨decodeWord_encode .nop, decodeWord_encode .commitKeys, decodeWord_encode .zeroize, decodeWord_encode .timeEnc,
    decodeWord_encode .timeDec, decodeWord_encode .hmacPad, decodeWord_encode .sigGen, decodeWord_encode .sigChk,
    decodeWord_encode .xorMask, decodeWord_encode .xorUnmask, decodeWord_encode .b64Enc, decodeWord_encode .b64Dec,
    decodeWord_encode .encodeToken, decodeWord_encode .decodeToken, needsKeys_iff⟩

end Sys2Proof

namespace Sys2Proof.Machine

/-! ## Host writes to CMD (R80 30_encoding.md, R273 70_reset_and_hazards.md) -/

/-- A host write in the window is carried to the block. -/
theorem takeInput_write {off : Nat} (hoff : off ≤ 0x0FF) (width : Nat) (v : Word) (s : State) :
    takeInput (.bus (.write (Config.baseAddr + off) width v)) s = .next (memWrite off width v s) := by
  simp [takeInput, busTransaction, hoff]

/-- A busy block drops a write to any register but CTRL and STATUS. -/
theorem memWrite_dropped {r : Reg} {s : State} (hb : s.busy = true) (hr : writableWhileBusy (some r) = false)
    (v : Word) : memWrite r.offset 4 v s = { s.dropWrite with resp := .writeDone } := by
  obtain ⟨ha, hw⟩ := offset_admitted r
  simp [memWrite, admitted_word _ ha hw, admittedWrite, writeEffect, hb, hr]

/-- On an idle engine the turn is the outside world's. -/
theorem engineTurn_of_idle {s : State} (h : s.eng = .idle) : engineTurn s = false := by
  simp [engineTurn, s.not_busy_iff.mpr h]

/-- Settles O4: either way the turn is the outside world's, and the write reaches CMD. -/
theorem commandWriteIsAcceptedOrDropped : Obligations.CommandWriteIsAcceptedOrDropped := by
  intro s w rest hp
  refine ⟨fun hidle => ?_, fun u hu hl => ?_⟩
  · rw [step_eq_takeInput_of_hostTurn (engineTurn_of_idle hidle) hp, takeInput_write (by decide)]
    exact congrArg _ (memWrite_register .cmd w { s with pending := rest, lag := s.lag - 1 } hidle)
  · rw [step_eq_takeInput hp hl, takeInput_write (by decide)]
    have hbusy : State.busy { s with pending := rest, lag := s.lag - 1 } = true := (State.busy_iff _).mpr ⟨u, hu⟩
    exact congrArg _ (memWrite_dropped (r := .cmd) hbusy rfl w)

end Sys2Proof.Machine

namespace Sys2Proof.Machine

/-! ## Control commands and the key gate (R100 to R103 40_control.md) -/

/-- Every keyed command is a body behind the key gate, which clears AUTH_OK for SIG_CHK and DECODE (R103). -/
theorem exec_eq_keyGate {i : Instr} (h : needsKeys i = true) :
    ∃ body, ∀ s, exec i s = keyGate (decide (i = .sigChk ∨ i = .decodeToken)) s body := by
  rcases (needsKeys_iff i).mp h with rfl | rfl | rfl | rfl | rfl <;> exact ⟨_, fun _ => rfl⟩

/-- Settles O10: without committed keys the gate stops the command before its body. -/
theorem keyedCommandsWithoutKeysRaiseNoKeys : Obligations.KeyedCommandsWithoutKeysRaiseNoKeys := by
  intro i s hi hk
  obtain ⟨body, hbody⟩ := exec_eq_keyGate hi
  rw [hbody, keyGate_invalid _ s body hk]
  simp only [decide_eq_true_eq, ResultCode.bits]

/-- Settles O13: NOP is the bare completion. -/
theorem nopOnlyCompletes : Obligations.NopOnlyCompletes :=
  fun s => finish_eq .ok 0#32 s

/-- ERR_INFO of a failing COMMIT_KEYS, by the two lengths (R101). -/
theorem keyLengthInfo_of_lengths (e i : Word) :
    keyLengthInfo (e.toNat != 32) (i.toNat != 32) =
      (if e = 32#32 then 0#32 else 1#32) + (if i = 32#32 then 0#32 else 2#32) := by
  have hbits : ∀ eBad iBad : Bool,
      keyLengthInfo eBad iBad = (if eBad then 1#32 else 0#32) + (if iBad then 2#32 else 0#32) := by decide
  rw [hbits]
  congr 1 <;> simp [← BitVec.toNat_inj]

theorem execCommitKeys_of_lengths {s : State} (he : s.ekeyLen = 32#32) (hi : s.ikeyLen = 32#32) :
    execCommitKeys s = finish .ok 0#32 { s with keysValid := true } := by
  simp [execCommitKeys, he, hi]

theorem execCommitKeys_of_bad_length {s : State} (h : ¬ (s.ekeyLen = 32#32 ∧ s.ikeyLen = 32#32)) :
    execCommitKeys s =
      raise .keyLength (keyLengthInfo (s.ekeyLen.toNat != 32) (s.ikeyLen.toNat != 32))
        { s with keysValid := false } := by
  have hbad : (s.ekeyLen.toNat != 32 || s.ikeyLen.toNat != 32) = true := by
    simpa [← BitVec.toNat_inj, ← not_and_or] using h
  exact if_pos hbad

/-- Settles O14, by the two outcomes of the length check. -/
theorem commitKeysChecksBothLengths : Obligations.CommitKeysChecksBothLengths := by
  refine ⟨fun s he hi => execCommitKeys_of_lengths he hi, fun s h => ?_⟩
  rw [← keyLengthInfo_of_lengths]
  exact execCommitKeys_of_bad_length h

/-- Settles O15: ZEROIZE completes on `State.zeroized`. -/
theorem zeroizeErasesSecrets : Obligations.ZeroizeErasesSecrets := by
  intro s
  have hkeys : ∀ k : Fin 8, s.zeroized.ek[k] = 0#32 ∧ s.zeroized.ik[k] = 0#32 := by simp
  have hdigest : ∀ k : Fin 5, s.zeroized.digest[k] = 0#32 := by simp
  exact ⟨s.zeroized.complete .ok 0#32, rfl, ⟨rfl, rfl, rfl, rfl⟩, hkeys, rfl, rfl, rfl, rfl, hdigest, rfl, rfl, rfl,
    rfl⟩

end Sys2Proof.Machine

namespace Sys2Proof.Machine

/-! ## The timestamp serializer and deserializer (R120 to R126 41_timestamp.md) -/

/-- The byte view of the IV, word by word (R120). -/
theorem State.ivBytes_eq_words (s : State) :
    s.ivBytes = beBytes4 s.iv[0] ++ beBytes4 s.iv[1] ++ beBytes4 s.iv[2] ++ beBytes4 s.iv[3] := by
  have hwords : s.iv.toList = [s.iv[0], s.iv[1], s.iv[2], s.iv[3]] :=
    List.ext_getElem (by simp) fun k hk _ => by
      simp only [Vector.length_toList] at hk
      interval_cases k <;> rfl
  simp [State.ivBytes, hwords]

/-- TIME_ENC on a time sample in range (R121). -/
theorem execTimeEnc_of_inRange {s : State} (h : s.timeUsec.toNat ≤ 999999) :
    execTimeEnc s = finish .ok 0#32 { s with iv := #v[s.timeSec, s.timeUsec, s.timeSec, s.timeUsec] } :=
  if_neg (mt (usecOutOfRange_iff s).mp h.not_gt)

/-- TIME_ENC on a time sample out of range (R121). -/
theorem execTimeEnc_of_outOfRange {s : State} (h : 999999 < s.timeUsec.toNat) :
    execTimeEnc s = raise .range rangeInfo s :=
  if_pos ((usecOutOfRange_iff s).mpr h)

/-- Settles O16, by the two outcomes of the range check. -/
theorem timeEncPacksTheSample : Obligations.TimeEncPacksTheSample := by
  refine ⟨fun s h => ⟨_, execTimeEnc_of_inRange h, ⟨rfl, rfl, rfl, rfl⟩, ?_, rfl⟩,
    fun s h => execTimeEnc_of_outOfRange h⟩
  rw [State.ivBytes_eq_words]
  rfl

/-- Settles O17: the first two words of the IV are its first 8 bytes. -/
theorem timeDecReadsFirstEightBytes : Obligations.TimeDecReadsFirstEightBytes := by
  intro s
  refine ⟨_, finish_eq .ok 0#32 { s with tsSec := s.iv[0], tsUsec := s.iv[1] }, ⟨rfl, rfl, rfl, rfl⟩, ?_, rfl⟩
  rw [State.ivBytes_eq_words, List.append_assoc _ (beBytes4 s.iv[2])]
  exact (List.take_left' (by simp)).symm

/-- Settles O18: TIME_DEC reads back the first two words that TIME_ENC wrote. -/
theorem timeRoundTripIsExact : Obligations.TimeRoundTripIsExact :=
  fun _ h => ⟨_, _, execTimeEnc_of_inRange h, rfl, rfl, rfl, rfl, rfl⟩

end Sys2Proof.Machine

namespace Sys2Proof.Machine

/-! ## SHA-1's padding and message schedule (R141, R146 42_hmac_sha1.md) -/

/-- The zero bytes bring the padded message to 56 bytes modulo 64 (R141). -/
theorem padZeros_mod (len : Nat) : (len + 1 + padZeros len) % 64 = 56 := by
  unfold padZeros; omega

/-- No smaller number of zero bytes does (R141). -/
theorem padZeros_le {len j : Nat} (h : (len + 1 + j) % 64 = 56) : padZeros len ≤ j := by
  unfold padZeros; omega

theorem sha1Pad_length (m : List Byte) : (sha1Pad m).length = m.length + 1 + padZeros m.length + 8 := by
  simp only [sha1Pad, List.length_append, List.length_replicate, List.length_singleton, beBytes8_length]

/-- R141: the padded message is a whole number of 64-byte blocks. -/
theorem sha1Pad_length_mod (m : List Byte) : (sha1Pad m).length % 64 = 0 := by
  have hmod := padZeros_mod m.length
  rw [sha1Pad_length]
  omega

/-- Settles O19: the number of zero bytes is `padZeros` of the message's length. -/
theorem sha1PaddingIsMinimal : Obligations.Sha1PaddingIsMinimal :=
  fun m => ⟨padZeros m.length, rfl, padZeros_mod m.length, fun _ h => padZeros_le h, sha1Pad_length_mod m⟩

/-- The words `ws`, newest first, satisfy the recurrence of R146: each that has 16 older ones is made from those. -/
def FollowsRecurrence (ws : List Word) : Prop :=
  ∀ i, i + 16 < ws.length →
    ws.getD i 0#32 =
      rotl 1 (ws.getD (i + 3) 0#32 ^^^ ws.getD (i + 8) 0#32 ^^^ ws.getD (i + 14) 0#32 ^^^ ws.getD (i + 16) 0#32)

/-- The word that the schedule puts in front of `ws` continues the recurrence. -/
theorem FollowsRecurrence.cons {ws : List Word} (h : FollowsRecurrence ws) :
    FollowsRecurrence
      (rotl 1 (ws.getD 2 0#32 ^^^ ws.getD 7 0#32 ^^^ ws.getD 13 0#32 ^^^ ws.getD 15 0#32) :: ws) := by
  intro i hi
  cases i with
  | zero => rfl
  | succ i =>
    rw [List.length_cons] at hi
    exact h i (by omega)

/-- Extending the schedule keeps the recurrence. -/
theorem FollowsRecurrence.extend {ws : List Word} (h : FollowsRecurrence ws) (n : Nat) :
    FollowsRecurrence (extendSchedule n ws) := by
  induction n generalizing ws with
  | zero => exact h
  | succ n ih => exact ih h.cons

/-- A block's schedule, newest first, has 80 words (R146). -/
theorem extendSchedule_reverse_length {block : List Word} (h : block.length = 16) :
    (extendSchedule 64 block.reverse).length = 80 := by
  rw [extendSchedule_length, List.length_reverse, h]

/-- Newest first, the word that is `k` older than word `t` of the schedule stands `k` places later. -/
theorem schedule_getD_sub {block : List Word} (h : block.length = 16) {t k : Nat} (ht : t < 80) (hk : k ≤ t) :
    (schedule block).getD (t - k) 0#32 = (extendSchedule 64 block.reverse).getD (79 - t + k) 0#32 := by
  have hlen := extendSchedule_reverse_length h
  rw [schedule, List.getD_reverse _ (by omega), hlen, show 80 - 1 - (t - k) = 79 - t + k by omega]

/-- The schedule begins with the block (R146). -/
theorem schedule_getD_of_lt {block : List Word} {t : Nat} (ht : t < block.length) :
    (schedule block).getD t 0#32 = block.getD t 0#32 := by
  obtain ⟨newer, hnewer⟩ := extendSchedule_suffix 64 block.reverse
  rw [schedule, hnewer, List.reverse_append, List.reverse_reverse, List.getD_append _ _ _ _ ht]

/-- Settles O20: the 16 words of the block follow the recurrence for want of a seventeenth, and extending keeps it. -/
theorem sha1ScheduleRecurrence : Obligations.Sha1ScheduleRecurrence := by
  intro block h
  refine ⟨schedule_length block h, fun t ht => schedule_getD_of_lt (h ▸ ht), fun t ht htop => ?_⟩
  have hblock : FollowsRecurrence block.reverse := fun i hi => absurd hi (by simp [h])
  have hrec := hblock.extend 64 (79 - t) (by rw [extendSchedule_reverse_length h]; omega)
  have hword := fun k (hk : k ≤ t) => schedule_getD_sub h htop hk
  rw [hword 3 (by omega), hword 8 (by omega), hword 14 (by omega), hword 16 ht]
  exact (hword 0 (Nat.zero_le t)).trans hrec

/-! ## HMAC_PAD, SIG_GEN and SIG_CHK with committed keys (R154 to R158 42_hmac_sha1.md) -/

/-- HMAC_PAD behind the key gate (R154). -/
theorem execHmacPad_of_keysValid {s : State} (hk : s.keysValid = true) :
    execHmacPad s =
      finish .ok 0#32 ((s.setDigest (padDigest s s.ivBytes)).setPad (slice (padDigest s s.ivBytes) 0 8)) :=
  keyGate_valid _ s _ hk

/-- Settles O21: the bytes of DIGEST and PAD are the strings HMAC_PAD writes to them. -/
theorem hmacPadDerivesPad : Obligations.HmacPadDerivesPad := by
  intro s hk
  have hpad : (slice (padDigest s s.ivBytes) 0 8).length = 8 := by simp [slice, padDigest]
  exact ⟨_, execHmacPad_of_keysValid hk, ⟨rfl, rfl, rfl, rfl⟩, beBytes_words5 _ (hmacSha1_length _ _),
    beBytes_words2 _ hpad, rfl⟩

/-- The signature digest of the price and IV registers (R155). -/
def State.signature (s : State) : List Byte := sigDigest s s.priceBytes s.ivBytes

@[simp] theorem State.signature_length (s : State) : s.signature.length = 20 := hmacSha1_length _ _

/-- The state with the signature recomputed: DIGEST holds it and SIG_CALC its prefix (R155, R156). -/
def State.sigComputed (s : State) : State := (s.setDigest s.signature).setSigCalc (slice s.signature 0 4)

/-- R155: all 20 bytes of the signature stand in DIGEST. -/
theorem State.sigComputed_digestBytes (s : State) :
    s.sigComputed.digestBytes = hmacSha1 s.ikBytes (s.priceBytes ++ s.ivBytes) :=
  beBytes_words5 _ s.signature_length

/-- R155: the first 4 bytes of the signature stand in SIG_CALC. -/
theorem State.sigComputed_sigCalcBytes (s : State) :
    s.sigComputed.sigCalcBytes = (hmacSha1 s.ikBytes (s.priceBytes ++ s.ivBytes)).take 4 :=
  beBytes4_wordAt _ (by simp [slice])

/-- SIG_GEN behind the key gate: SIG takes the word that SIG_CALC takes (R155). -/
theorem execSigGen_of_keysValid {s : State} (hk : s.keysValid = true) :
    execSigGen s = finish .ok 0#32 { s.sigComputed with sig := s.sigComputed.sigCalc } :=
  keyGate_valid _ s _ hk

/-- Settles O22: the recomputed signature, with its prefix in SIG as well. -/
theorem sigGenPlacesPrefix : Obligations.SigGenPlacesPrefix := fun s hk =>
  ⟨_, execSigGen_of_keysValid hk, ⟨rfl, rfl, rfl, rfl⟩, s.sigComputed_digestBytes, s.sigComputed_sigCalcBytes, rfl,
    rfl⟩

/-- SIG_CHK behind the key gate, on a recomputed prefix that matches SIG (R156). -/
theorem execSigChk_of_match {s : State} (hk : s.keysValid = true) (h : s.sigComputed.sigCalc = s.sig) :
    execSigChk s = finish .ok 0#32 { s.sigComputed with authOk := true } :=
  (keyGate_valid _ s _ hk).trans (if_pos h)

/-- SIG_CHK behind the key gate, on a recomputed prefix that differs from SIG (R156). -/
theorem execSigChk_of_mismatch {s : State} (hk : s.keysValid = true) (h : s.sigComputed.sigCalc ≠ s.sig) :
    execSigChk s = finish .authFail 0#32 { s.sigComputed with authOk := false } :=
  (keyGate_valid _ s _ hk).trans (if_neg h)

/-- Settles O23, by the two outcomes of the comparison: words are equal exactly when their 4 bytes are (R158). -/
theorem sigChkComparesPrefix : Obligations.SigChkComparesPrefix := by
  intro s hk
  have hbytes : s.sigComputed.sigCalcBytes = s.sigBytes ↔ s.sigComputed.sigCalc = s.sig := beBytes4_inj
  by_cases h : s.sigComputed.sigCalc = s.sig
  · exact ⟨_, execSigChk_of_match hk h, s.sigComputed_digestBytes, s.sigComputed_sigCalcBytes,
      fun _ => ⟨⟨rfl, rfl, rfl, rfl⟩, rfl⟩, fun hne => absurd (hbytes.mpr h) hne, rfl⟩
  · exact ⟨_, execSigChk_of_mismatch hk h, s.sigComputed_digestBytes, s.sigComputed_sigCalcBytes,
      fun heq => absurd (hbytes.mp heq) h, fun _ => ⟨⟨rfl, rfl, rfl, rfl⟩, rfl⟩, rfl⟩

end Sys2Proof.Machine

namespace Sys2Proof.Machine

/-! ## The XOR cipher's commands (R180 to R183 43_xor_cipher.md) -/

/-- The bytewise XOR, read byte by byte: beyond both strings each side is 0. -/
theorem xorBytes_getD {a b : List Byte} (h : a.length = b.length) (i : Nat) :
    (xorBytes a b).getD i 0#8 = a.getD i 0#8 ^^^ b.getD i 0#8 := by
  by_cases hi : i < a.length <;> simp [xorBytes, hi, h ▸ hi]

/-- The price masked with PAD, word by word (R181). -/
def State.xorMasked (s : State) : State :=
  { s with encPriceHi := s.priceHi ^^^ s.padHi, encPriceLo := s.priceLo ^^^ s.padLo }

/-- The encrypted price unmasked with PAD, word by word (R182). -/
def State.xorUnmasked (s : State) : State :=
  { s with priceHi := s.encPriceHi ^^^ s.padHi, priceLo := s.encPriceLo ^^^ s.padLo }

/-- XOR_MASK, given by its bytes, is the wordwise XOR (R181). -/
theorem exec_xorMask (s : State) : exec .xorMask s = finish .ok 0#32 s.xorMasked := by
  obtain ⟨hhi, hlo⟩ := wordAt_pair (s.priceHi ^^^ s.padHi) (s.priceLo ^^^ s.padLo)
  rw [exec, execXorMask, State.priceBytes, State.padBytes, xorBytes_words, State.setEnc, hhi, hlo, State.xorMasked]

/-- XOR_UNMASK, given by its bytes, is the wordwise XOR (R182). -/
theorem exec_xorUnmask (s : State) : exec .xorUnmask s = finish .ok 0#32 s.xorUnmasked := by
  obtain ⟨hhi, hlo⟩ := wordAt_pair (s.encPriceHi ^^^ s.padHi) (s.encPriceLo ^^^ s.padLo)
  rw [exec, execXorUnmask, State.encBytes, State.padBytes, xorBytes_words, State.setPrice, hhi, hlo,
    State.xorUnmasked]

/-- The bytes of ENC_PRICE after XOR_MASK (R181). -/
theorem State.xorMasked_encBytes (s : State) : s.xorMasked.encBytes = xorBytes s.priceBytes s.padBytes :=
  (xorBytes_words _ _ _ _).symm

/-- The bytes of PRICE after XOR_UNMASK (R182). -/
theorem State.xorUnmasked_priceBytes (s : State) : s.xorUnmasked.priceBytes = xorBytes s.encBytes s.padBytes :=
  (xorBytes_words _ _ _ _).symm

/-- Settles O24: XOR_MASK completes on `State.xorMasked`, whose bytes are the bytewise XOR. -/
theorem xorMaskMasksPrice : Obligations.XorMaskMasksPrice := by
  intro s
  refine ⟨_, exec_xorMask s, ⟨rfl, rfl, rfl, rfl⟩, fun i _ => ?_, rfl, rfl, rfl⟩
  exact (congrArg (·.getD i 0#8) s.xorMasked_encBytes).trans (xorBytes_getD (by simp) i)

/-- Settles O25: XOR_UNMASK completes on `State.xorUnmasked`, whose bytes are the bytewise XOR. -/
theorem xorUnmaskRecoversPrice : Obligations.XorUnmaskRecoversPrice := by
  intro s
  refine ⟨_, exec_xorUnmask s, ⟨rfl, rfl, rfl, rfl⟩, fun i _ => ?_, rfl, rfl, rfl⟩
  exact (congrArg (·.getD i 0#8) s.xorUnmasked_priceBytes).trans (xorBytes_getD (by simp) i)

/-- A command that completes hands its state to the rest of the list. -/
theorem execAll_cons {i : Instr} {s t : State} (h : exec i s = .next t) (is : List Instr) :
    execAll (i :: is) s = execAll is t := by
  rw [execAll, h]

/-- Two commands that complete, one after the other. -/
theorem execAll_pair {i j : Instr} {s t u : State} (hi : exec i s = .next t) (hj : exec j t = .next u) :
    execAll [i, j] s = .next u := by
  rw [execAll_cons hi, execAll_cons hj, execAll]

/-- Settles O26: neither command writes PAD, so the second XORs each word with the same word again. -/
theorem xorCommandsAreInverse : Obligations.XorCommandsAreInverse := by
  refine fun s => ⟨⟨_, execAll_pair (exec_xorMask s) (exec_xorUnmask _), ?_, ?_⟩,
    ⟨_, execAll_pair (exec_xorUnmask s) (exec_xorMask _), ?_, ?_⟩⟩
  all_goals exact xor_cancel_right _ _

end Sys2Proof.Machine

namespace Sys2Proof.Machine

/-! ## The alphabet (R190 44_base64.md) -/

/-- Settles O27: the two tables undo each other, and no row of `alphaInv` holds `=`. -/
theorem alphabetIsOneToOne : Obligations.AlphabetIsOneToOne :=
  ⟨fun v c => ⟨alpha_of_alphaInv c v, fun h => h ▸ alphaInv_alpha v⟩, by decide⟩

theorem alpha_inj {v w : BitVec 6} : alpha v = alpha w ↔ v = w := by
  refine ⟨fun h => ?_, congrArg alpha⟩
  have : alphaInv (alpha v) = alphaInv (alpha w) := congrArg alphaInv h
  simpa using this

/-- A character that the alphabet holds is the one of its value (R193). -/
theorem alpha_charValue {c : List Byte} {j : Nat} (h : (alphaInv (c.getD j 0x41#8)).isSome = true) :
    alpha (charValue c j) = c.getD j 0x41#8 := by
  obtain ⟨v, hv⟩ := Option.isSome_iff_exists.mp h
  rw [charValue, hv]
  exact alpha_of_alphaInv _ v hv

/-! ## Encoding after decoding (R191, R193 44_base64.md) -/

/-- The group's 24-bit number is the same in three bytes as in four values, so encoding undoes decoding on a group. -/
theorem encodeGroup_decodeGroup (v0 v1 v2 v3 : BitVec 6) :
    encodeGroup ((decodeGroup v0 v1 v2 v3).getD 0 0#8) ((decodeGroup v0 v1 v2 v3).getD 1 0#8)
      ((decodeGroup v0 v1 v2 v3).getD 2 0#8) = [alpha v0, alpha v1, alpha v2, alpha v3] := by
  have hbytes : ∀ n : BitVec 24, n.extractLsb' 16 8 ++ n.extractLsb' 8 8 ++ n.extractLsb' 0 8 = n := fun n => by
    rw [BitVec.extractLsb'_append_extractLsb'_eq_extractLsb' (start₂ := 16) (start₁ := 8) rfl,
      BitVec.extractLsb'_append_extractLsb'_eq_extractLsb' (start₂ := 8) (start₁ := 0) rfl,
      BitVec.extractLsb'_eq_self]
  have hv0 : (v0 ++ v1 ++ v2 ++ v3).extractLsb' 18 6 = v0 := by
    rw [BitVec.extractLsb'_append_eq_of_le (by decide), BitVec.extractLsb'_append_eq_of_le (by decide),
      BitVec.extractLsb'_append_eq_left]
  have hv1 : (v0 ++ v1 ++ v2 ++ v3).extractLsb' 12 6 = v1 := by
    rw [BitVec.extractLsb'_append_eq_of_le (by decide), BitVec.extractLsb'_append_eq_of_le (by decide),
      BitVec.extractLsb'_append_eq_right]
  have hv2 : (v0 ++ v1 ++ v2 ++ v3).extractLsb' 6 6 = v2 := by
    rw [BitVec.extractLsb'_append_eq_of_le (by decide), BitVec.extractLsb'_append_eq_right]
  have hv3 : (v0 ++ v1 ++ v2 ++ v3).extractLsb' 0 6 = v3 := BitVec.extractLsb'_append_eq_right
  simp only [encodeGroup, decodeGroup, List.getD_cons_zero, List.getD_cons_succ, hbytes, hv0, hv1, hv2, hv3]

/-- R201 (b): the mask keeps a value's top 2 bits and clears its 4 tail bits. -/
theorem and_tailMask (v : BitVec 6) : v &&& 0b110000#6 = v.extractLsb' 4 2 ++ 0#4 := by
  revert v; decide

/-- Two values agree under the mask exactly when their top 2 bits do. -/
theorem and_tailMask_inj {v w : BitVec 6} :
    v &&& 0b110000#6 = w &&& 0b110000#6 ↔ v.extractLsb' 4 2 = w.extractLsb' 4 2 := by
  rw [and_tailMask, and_tailMask]
  refine ⟨fun h => ?_, fun h => by rw [h]⟩
  have htop := congrArg (·.extractLsb' 4 2) h
  simpa only [BitVec.extractLsb'_append_eq_left] using htop

/-- Encoding the decoded last byte clears the tail bits that decoding ignores (R193). -/
theorem encodeTail_decodeTail (v36 v37 : BitVec 6) :
    encodeTail (decodeTail v36 v37) = [alpha v36, alpha (v37 &&& 0b110000#6)] := by
  rw [and_tailMask, encodeTail, decodeTail, BitVec.extractLsb'_append_eq_left, BitVec.extractLsb'_append_eq_right]

/-- A string by groups of four. -/
theorem flatMap_groupsOfFour {l : List Byte} (d : Byte) {n : Nat} (h : 4 * n ≤ l.length) :
    (List.range n).flatMap
      (fun g => [l.getD (4 * g) d, l.getD (4 * g + 1) d, l.getD (4 * g + 2) d, l.getD (4 * g + 3) d]) =
    l.take (4 * n) := by
  induction n with
  | zero => rfl
  | succ n ih =>
    have hget : ∀ i, i < 4 → l[4 * n + i]?.toList = [l.getD (4 * n + i) d] := fun i hi => by
      have : 4 * n + i < l.length := by omega
      simp [this]
    have h0 := hget 0 (by decide)
    rw [Nat.add_zero] at h0
    rw [List.range_succ, List.flatMap_append, ih (by omega), Nat.mul_succ]
    simp only [List.take_add_one, List.append_assoc, h0, hget 1 (by decide), hget 2 (by decide), hget 3 (by decide)]
    rfl

/-- The bytes of group `g` of a decoded message. -/
theorem b64uDec_getD_group (c : List Byte) {g i : Nat} (hg : g < 9) (hi : i < 3) :
    (b64uDec c).getD (3 * g + i) 0#8 =
      (decodeGroup (charValue c (4 * g)) (charValue c (4 * g + 1)) (charValue c (4 * g + 2))
        (charValue c (4 * g + 3))).getD i 0#8 :=
  flatMap_range_getD 3 _ (fun _ => rfl) _ 9 g i _ hg hi

/-- The last byte of a decoded message. -/
theorem b64uDec_getD_last (c : List Byte) :
    (b64uDec c).getD 27 0#8 = decodeTail (charValue c 36) (charValue c 37) := by
  rw [b64uDec, List.getD_append_right _ _ _ _ (by simp [decodeGroup])]
  simp [decodeGroup]

/-- R201 (b): encoding a decoded token text gives its first 37 characters, and the last one with its tail bits
cleared. -/
theorem b64uEnc_b64uDec {c : List Byte} (hlen : c.length = 38)
    (halpha : ∀ j, j < 38 → (alphaInv (c.getD j 0x41#8)).isSome = true) :
    b64uEnc (b64uDec c) = c.take 37 ++ [alpha (charValue c 37 &&& 0b110000#6)] := by
  have hchar : ∀ j, j < 38 → alpha (charValue c j) = c.getD j 0x41#8 := fun j hj => alpha_charValue (halpha j hj)
  have hgroup : ∀ g ∈ List.range 9,
      encodeGroup ((b64uDec c).getD (3 * g) 0#8) ((b64uDec c).getD (3 * g + 1) 0#8)
        ((b64uDec c).getD (3 * g + 2) 0#8) =
      [c.getD (4 * g) 0x41#8, c.getD (4 * g + 1) 0x41#8, c.getD (4 * g + 2) 0x41#8, c.getD (4 * g + 3) 0x41#8] := by
    intro g hmem
    have hg : g < 9 := List.mem_range.mp hmem
    have hfirst := b64uDec_getD_group c hg (i := 0) (by decide)
    rw [Nat.add_zero] at hfirst
    rw [hfirst, b64uDec_getD_group c hg (by decide), b64uDec_getD_group c hg (by decide), encodeGroup_decodeGroup,
      hchar _ (by omega), hchar _ (by omega), hchar _ (by omega), hchar _ (by omega)]
  have htake : c.take 36 ++ [c.getD 36 0x41#8] = c.take 37 := by
    rw [List.take_add_one]
    simp [hlen]
  calc b64uEnc (b64uDec c)
      = c.take 36 ++ [c.getD 36 0x41#8, alpha (charValue c 37 &&& 0b110000#6)] := by
        rw [b64uEnc, List.flatMap_congr hgroup, flatMap_groupsOfFour _ (by omega), b64uDec_getD_last,
          encodeTail_decodeTail, hchar 36 (by decide)]
    _ = c.take 37 ++ [alpha (charValue c 37 &&& 0b110000#6)] := by
        rw [← htake, List.append_assoc]
        rfl

/-- Decoded messages are equal exactly when they are encoded alike. -/
theorem b64uDec_eq_iff {c c' : List Byte} :
    b64uDec c = b64uDec c' ↔ b64uEnc (b64uDec c) = b64uEnc (b64uDec c') := by
  refine ⟨congrArg b64uEnc, fun h => ?_⟩
  have hdec := congrArg b64uDec h
  rwa [b64uDec_b64uEnc _ (b64uDec_length c), b64uDec_b64uEnc _ (b64uDec_length c')] at hdec

/-! ## Accepted tokens (R196, R197 44_base64.md) -/

theorem tokenChars_take (s : State) : s.tokenChars.take 37 = s.tokenBytes.take 37 := by
  rw [State.tokenChars, slice_zero, List.take_take]
  rfl

/-- The value of a token's last character. -/
theorem charValue_tokenChars_last {s : State} {v : BitVec 6}
    (h : alphaInv (s.tokenBytes.getD 37 0#8) = some v) : charValue s.tokenChars 37 = v := by
  rw [charValue, tokenChars_getD s 37 (by decide), h, Option.getD_some]

/-- The last character of an accepted token has a value. -/
theorem exists_lastChar_value {s : State} (h : tokenAccepted s) : ∃ v, alphaInv (s.tokenBytes.getD 37 0#8) = some v := by
  obtain ⟨-, halpha⟩ := h
  exact Option.isSome_iff_exists.mp (halpha 37 (by decide))

/-- R201 (b), for the token buffer: the message of an accepted token encodes to the token with the last character's
tail bits cleared. -/
theorem b64uEnc_tokenMessage {s : State} {v : BitVec 6} (h : tokenAccepted s)
    (hv : alphaInv (s.tokenBytes.getD 37 0#8) = some v) :
    b64uEnc s.tokenMessage = s.tokenBytes.take 37 ++ [alpha (v &&& 0b110000#6)] := by
  obtain ⟨-, halpha⟩ := h
  rw [State.tokenMessage, b64uEnc_b64uDec s.tokenChars_length, tokenChars_take, charValue_tokenChars_last hv]
  intro j hj
  rw [tokenChars_getD s j hj]
  exact halpha j hj

/-- Settles O32: the messages are equal exactly when they are encoded alike, and the encodings are the tokens with
their tail bits cleared. -/
theorem tokensAgreeUpToTailBits : Obligations.TokensAgreeUpToTailBits := by
  intro s s' v v' h h' hv hv'
  calc s.tokenMessage = s'.tokenMessage
      ↔ b64uEnc s.tokenMessage = b64uEnc s'.tokenMessage := b64uDec_eq_iff
    _ ↔ s.tokenBytes.take 37 = s'.tokenBytes.take 37 ∧ alpha (v &&& 0b110000#6) = alpha (v' &&& 0b110000#6) := by
        rw [b64uEnc_tokenMessage h hv, b64uEnc_tokenMessage h' hv', List.append_singleton_inj]
    _ ↔ s.tokenBytes.take 37 = s'.tokenBytes.take 37 ∧ v.extractLsb' 4 2 = v'.extractLsb' 4 2 := by
        rw [alpha_inj, and_tailMask_inj]

theorem formatFailure_of_accepted {s : State} (h : tokenAccepted s) : formatFailure s = none := by
  obtain ⟨hlen, halpha⟩ := h
  simp [formatFailure, hlen, (firstBadChar_eq_none s).mpr halpha]

theorem formatFailure_of_length {s : State} (h : s.tokenLen ≠ 38#32) : formatFailure s = some formatLengthInfo :=
  if_pos (by simpa [← BitVec.toNat_inj] using h)

theorem formatFailure_of_firstBad {s : State} {j : Nat} (hlen : s.tokenLen = 38#32) (h : firstBadAt s j) :
    formatFailure s = some (formatCharInfo j) := by
  simp [formatFailure, hlen, firstBadChar_eq_some s j h]

/-! ## B64_ENC and B64_DEC (R199, R200 44_base64.md) -/

/-- The message in the IV, ENC_PRICE and SIG registers (R194). -/
def State.fieldMessage (s : State) : List Byte := message s.ivBytes s.encBytes s.sigBytes

@[simp] theorem State.fieldMessage_length (s : State) : s.fieldMessage.length = 28 := by
  simp [State.fieldMessage, message]

/-- The state with the three fields of a message in IV, ENC_PRICE and SIG (R200). -/
def State.setFields (m : List Byte) (s : State) : State :=
  ((s.setIv (slice m 0 16)).setEnc (slice m 16 24)).setSig (slice m 24 28)

/-- The fields written from a 28-byte message hold that message. -/
theorem State.setFields_fieldMessage (s : State) {m : List Byte} (h : m.length = 28) :
    (s.setFields m).fieldMessage = m := by
  obtain ⟨hiv, henc, hsig, hm⟩ := slice_message m h
  have hivBytes : (s.setFields m).ivBytes = slice m 0 16 := beBytes_words4 _ hiv
  have hencBytes : (s.setFields m).encBytes = slice m 16 24 := beBytes_words2 _ henc
  have hsigBytes : (s.setFields m).sigBytes = slice m 24 28 := beBytes4_wordAt _ hsig
  rw [State.fieldMessage, message, hivBytes, hencBytes, hsigBytes, hm]

/-- The message determines the registers that hold it. -/
theorem State.fields_of_fieldMessage {s t : State} (h : t.fieldMessage = s.fieldMessage) :
    t.iv = s.iv ∧ t.encPriceHi = s.encPriceHi ∧ t.encPriceLo = s.encPriceLo ∧ t.sig = s.sig := by
  obtain ⟨hfront, hsig⟩ := List.append_inj h (by simp)
  obtain ⟨hiv, henc⟩ := List.append_inj hfront (by simp)
  obtain ⟨hhi, hlo⟩ := beBytes4_append_inj henc
  exact ⟨vector4_of_bytes hiv, hhi, hlo, beBytes4_inj.mp hsig⟩

/-- The state with the token text of the fields in the buffer (R199). -/
def State.tokenEncoded (s : State) : State := s.setToken (b64uEnc s.fieldMessage)

/-- The state with the token's message split into the fields (R200). -/
def State.tokenDecoded (s : State) : State := s.setFields s.tokenMessage

/-- B64_ENC always completes (R199). -/
theorem exec_b64Enc (s : State) : exec .b64Enc s = finish .ok 0#32 s.tokenEncoded := rfl

/-- B64_DEC on an accepted token (R200). -/
theorem exec_b64Dec_of_accepted {s : State} (h : tokenAccepted s) :
    exec .b64Dec s = finish .ok 0#32 s.tokenDecoded := by
  rw [exec, execB64Dec, formatFailure_of_accepted h]
  rfl

/-- B64_DEC on a token that fails a check (R195). -/
theorem exec_b64Dec_of_failure {s : State} {info : Word} (h : formatFailure s = some info) :
    exec .b64Dec s = raise .format info s := by
  rw [exec, execB64Dec, h]

/-- The last character of a token text carries only 2 bits (R191). -/
theorem b64uEnc_getD_last (m : List Byte) :
    (b64uEnc m).getD 37 0#8 = alpha ((m.getD 27 0#8).extractLsb' 0 2 ++ 0#4) := by
  rw [b64uEnc, List.getD_append_right _ _ _ _ (by simp)]
  simp [encodeTail]

/-- R199: a value whose tail bits are clear has one of four characters. -/
theorem alpha_tailClear_mem (b : BitVec 2) : alpha (b ++ 0#4) ∈ [0x41#8, 0x51#8, 0x67#8, 0x77#8] := by
  revert b; decide

theorem State.tokenEncoded_tokenBytes (s : State) :
    s.tokenEncoded.tokenBytes = b64uEnc s.fieldMessage ++ [0x00#8, 0x00#8] :=
  setToken_tokenBytes s _ (b64uEnc_length _)

/-- The last character of the buffer that B64_ENC wrote (R199). -/
theorem State.tokenEncoded_last_mem (s : State) :
    s.tokenEncoded.tokenBytes.getD 37 0#8 ∈ [0x41#8, 0x51#8, 0x67#8, 0x77#8] := by
  rw [s.tokenEncoded_tokenBytes, List.getD_append _ _ _ _ (by simp), b64uEnc_getD_last]
  exact alpha_tailClear_mem _

theorem State.tokenDecoded_fieldMessage (s : State) : s.tokenDecoded.fieldMessage = s.tokenMessage :=
  s.setFields_fieldMessage (b64uDec_length _)

/-- Settles O28: the buffer holds the token text and two zero bytes, and its last character has clear tail bits. -/
theorem b64EncWritesToken : Obligations.B64EncWritesToken := fun s =>
  ⟨_, exec_b64Enc s, ⟨rfl, rfl, rfl, rfl⟩, s.tokenEncoded_tokenBytes, rfl, s.tokenEncoded_last_mem, rfl⟩

/-- Settles O29, by the three answers of the decode checks. -/
theorem b64DecSplitsToken : Obligations.B64DecSplitsToken := by
  refine ⟨fun s h => ?_, fun s hlen => exec_b64Dec_of_failure (formatFailure_of_length hlen),
    fun s j hlen hbad => exec_b64Dec_of_failure (formatFailure_of_firstBad hlen hbad)⟩
  exact ⟨_, exec_b64Dec_of_accepted h, ⟨rfl, rfl, rfl, rfl⟩, s.tokenDecoded_fieldMessage, rfl⟩

/-- The token text in the buffer is the one written (R199). -/
theorem setToken_tokenChars (s : State) {c : List Byte} (h : c.length = 38) : (s.setToken c).tokenChars = c :=
  tokenChars_of_tokenBytes _ c _ h (setToken_tokenBytes s c h)

/-- A token text written to the buffer passes the decode checks. -/
theorem tokenAccepted_setToken (s : State) (m : List Byte) : tokenAccepted (s.setToken (b64uEnc m)) := by
  refine ⟨rfl, (firstBadChar_eq_none _).mp ?_⟩
  rw [setToken_tokenChars s (b64uEnc_length m)]
  exact firstBadChar_b64uEnc m

/-- The token that B64_ENC makes carries the message of the fields. -/
theorem State.tokenEncoded_tokenMessage (s : State) : s.tokenEncoded.tokenMessage = s.fieldMessage := by
  rw [State.tokenMessage, State.tokenEncoded, setToken_tokenChars s (b64uEnc_length _),
    b64uDec_b64uEnc _ s.fieldMessage_length]

/-- Settles O30: B64_DEC finds the message of the fields in the token that B64_ENC made. -/
theorem b64DecAfterEncRestoresFields : Obligations.B64DecAfterEncRestoresFields := by
  intro s
  have haccepted : tokenAccepted (s.tokenEncoded.complete .ok 0#32) := tokenAccepted_setToken s _
  have hmessage : s.tokenEncoded.tokenDecoded.fieldMessage = s.fieldMessage :=
    s.tokenEncoded.tokenDecoded_fieldMessage.trans s.tokenEncoded_tokenMessage
  exact ⟨_, execAll_pair (exec_b64Enc s) (exec_b64Dec_of_accepted haccepted), ⟨rfl, rfl, rfl, rfl⟩,
    State.fields_of_fieldMessage hmessage⟩

/-- Settles O31: B64_ENC encodes the message of the accepted token. -/
theorem b64EncAfterDecNormalisesLastChar : Obligations.B64EncAfterDecNormalisesLastChar := by
  intro s h
  obtain ⟨v, hv⟩ := exists_lastChar_value h
  refine ⟨_, v, execAll_pair (exec_b64Dec_of_accepted h) (exec_b64Enc _), hv, ?_⟩
  calc s.tokenDecoded.tokenEncoded.tokenBytes
      = b64uEnc s.tokenDecoded.fieldMessage ++ [0x00#8, 0x00#8] := s.tokenDecoded.tokenEncoded_tokenBytes
    _ = s.tokenBytes.take 37 ++ [alpha (v &&& 0b110000#6), 0x00#8, 0x00#8] := by
      rw [s.tokenDecoded_fieldMessage, b64uEnc_tokenMessage h hv, List.append_assoc]
      rfl

end Sys2Proof.Machine

namespace Sys2Proof.Machine

/-! ## Reading back and writing again the byte views of registers (R46 10_state.md) -/

/-- The three fields as they stand in the registers that a message was written to (R200). -/
theorem State.setFields_bytes (s : State) {m : List Byte} (h : m.length = 28) :
    (s.setFields m).ivBytes = slice m 0 16 ∧ (s.setFields m).encBytes = slice m 16 24 ∧
    (s.setFields m).sigBytes = slice m 24 28 := by
  obtain ⟨hiv, henc, hsig, -⟩ := slice_message m h
  exact ⟨beBytes_words4 _ hiv, beBytes_words2 _ henc, beBytes4_wordAt _ hsig⟩

/-- Writing the message that the registers hold changes nothing. -/
theorem State.setFields_of_fieldMessage (s : State) : s.setFields s.fieldMessage = s := by
  obtain ⟨hiv, hhi, hlo, hsig⟩ := State.fields_of_fieldMessage (s.setFields_fieldMessage s.fieldMessage_length)
  calc s.setFields s.fieldMessage
      = { s with
          iv := (s.setFields s.fieldMessage).iv, encPriceHi := (s.setFields s.fieldMessage).encPriceHi,
          encPriceLo := (s.setFields s.fieldMessage).encPriceLo, sig := (s.setFields s.fieldMessage).sig } := rfl
    _ = s := by rw [hiv, hhi, hlo, hsig]

/-- XOR_MASK's write, by its bytes (R181). -/
theorem State.setEnc_xorBytes (s : State) : s.setEnc (xorBytes s.priceBytes s.padBytes) = s.xorMasked := by
  obtain ⟨hhi, hlo⟩ := wordAt_pair (s.priceHi ^^^ s.padHi) (s.priceLo ^^^ s.padLo)
  rw [State.priceBytes, State.padBytes, xorBytes_words, State.setEnc, hhi, hlo, State.xorMasked]

/-- XOR_UNMASK's write, by its bytes (R182). -/
theorem State.setPrice_xorBytes (s : State) : s.setPrice (xorBytes s.encBytes s.padBytes) = s.xorUnmasked := by
  obtain ⟨hhi, hlo⟩ := wordAt_pair (s.encPriceHi ^^^ s.padHi) (s.encPriceLo ^^^ s.padLo)
  rw [State.encBytes, State.padBytes, xorBytes_words, State.setPrice, hhi, hlo, State.xorUnmasked]

/-- The first two words of the IV are its first 8 bytes (R122). -/
theorem State.ivBytes_take_eight (s : State) : s.ivBytes.take 8 = beBytes4 s.iv[0] ++ beBytes4 s.iv[1] := by
  rw [State.ivBytes_eq_words, List.append_assoc _ (beBytes4 s.iv[2])]
  exact List.take_left' (by simp)

/-! ## What TIME_ENC, HMAC_PAD and SIG_GEN write, as updates of the state (R121, R154, R155) -/

/-- The state with the time sample packed into IV (R121). -/
def State.timeStamped (s : State) : State := { s with iv := #v[s.timeSec, s.timeUsec, s.timeSec, s.timeUsec] }

theorem State.setIv_timeIv (s : State) : s.setIv s.timeIv = s.timeStamped :=
  congrArg (fun v => { s with iv := v }) (words4_timeIv s)

theorem State.timeStamped_ivBytes (s : State) : s.timeStamped.ivBytes = s.timeIv := by
  rw [← s.setIv_timeIv]
  exact beBytes_words4 _ s.timeIv_length

theorem exec_timeEnc_of_inRange {s : State} (h : s.timeUsec.toNat ≤ 999999) :
    exec .timeEnc s = finish .ok 0#32 s.timeStamped :=
  execTimeEnc_of_inRange h

/-- The pad that the IV in force gives: the first 8 bytes of its digest under the encryption key. -/
def State.ivPad (s : State) : List Byte := slice (padDigest s s.ivBytes) 0 8

@[simp] theorem State.ivPad_length (s : State) : s.ivPad.length = 8 := by simp [State.ivPad, slice, padDigest]

/-- The state with DIGEST and PAD derived from IV (R154). -/
def State.padDerived (s : State) : State := (s.setDigest (padDigest s s.ivBytes)).setPad s.ivPad

theorem State.padDerived_padBytes (s : State) : s.padDerived.padBytes = s.ivPad :=
  beBytes_words2 _ s.ivPad_length

theorem exec_hmacPad_of_keysValid {s : State} (hk : s.keysValid = true) :
    exec .hmacPad s = finish .ok 0#32 s.padDerived :=
  execHmacPad_of_keysValid hk

/-- The state with the signature recomputed and its prefix in SIG as well (R155). -/
def State.signed (s : State) : State :=
  ((s.setDigest s.signature).setSigCalc (slice s.signature 0 4)).setSig (slice s.signature 0 4)

theorem exec_sigGen_of_keysValid {s : State} (hk : s.keysValid = true) :
    exec .sigGen s = finish .ok 0#32 s.signed :=
  execSigGen_of_keysValid hk

/-! A completion touches no register that these updates read or write, so it can be put off to the end of a sequence;
and they keep the keys. -/

section
variable (s : State) (c : ResultCode) (x : Word)

@[simp] theorem State.complete_complete (c' : ResultCode) (x' : Word) :
    (s.complete c x).complete c' x' = s.complete c' x' := rfl
@[simp] theorem State.complete_padDerived : (s.complete c x).padDerived = s.padDerived.complete c x := rfl
@[simp] theorem State.complete_xorMasked : (s.complete c x).xorMasked = s.xorMasked.complete c x := rfl
@[simp] theorem State.complete_xorUnmasked : (s.complete c x).xorUnmasked = s.xorUnmasked.complete c x := rfl
@[simp] theorem State.complete_signed : (s.complete c x).signed = s.signed.complete c x := rfl
@[simp] theorem State.complete_sigComputed : (s.complete c x).sigComputed = s.sigComputed.complete c x := rfl
@[simp] theorem State.complete_tokenEncoded : (s.complete c x).tokenEncoded = s.tokenEncoded.complete c x := rfl
@[simp] theorem State.complete_tokenDecoded : (s.complete c x).tokenDecoded = s.tokenDecoded.complete c x := rfl

@[simp] theorem State.timeStamped_keysValid : s.timeStamped.keysValid = s.keysValid := rfl
@[simp] theorem State.padDerived_keysValid : s.padDerived.keysValid = s.keysValid := rfl
@[simp] theorem State.xorMasked_keysValid : s.xorMasked.keysValid = s.keysValid := rfl
@[simp] theorem State.xorUnmasked_keysValid : s.xorUnmasked.keysValid = s.keysValid := rfl
@[simp] theorem State.tokenDecoded_keysValid : s.tokenDecoded.keysValid = s.keysValid := rfl

end

/-! ## ENCODE (R222, R224, R227 45_token.md) -/

/-- The state with the fields of a token made from PRICE and IV: pad, encrypted price and signature (R222 steps 2 to
5). -/
def State.fieldsMade (s : State) : State :=
  ((((s.setPad s.ivPad).setEnc (xorBytes s.priceBytes s.ivPad)).setDigest s.signature).setSigCalc
    (slice s.signature 0 4)).setSig (slice s.signature 0 4)

/-- The price is masked with the pad of the IV. -/
theorem State.padDerived_xorMasked (s : State) :
    s.padDerived.xorMasked = s.padDerived.setEnc (xorBytes s.priceBytes s.ivPad) := by
  rw [← State.setEnc_xorBytes, State.padDerived_padBytes]
  rfl

/-- The signature is made from the price and the IV alone, not from the pad. -/
theorem State.padDerived_xorMasked_signature (s : State) : s.padDerived.xorMasked.signature = s.signature := rfl

/-- HMAC_PAD, XOR_MASK and SIG_GEN make the fields (R224); the pad digest is overwritten. -/
theorem State.padDerived_xorMasked_signed (s : State) : s.padDerived.xorMasked.signed = s.fieldsMade := by
  rw [State.signed, State.padDerived_xorMasked_signature, State.padDerived_xorMasked]
  rfl

section
variable (s : State)

theorem State.fieldsMade_ivBytes : s.fieldsMade.ivBytes = s.ivBytes := by
  simp [State.ivBytes, State.fieldsMade]

theorem State.fieldsMade_padBytes : s.fieldsMade.padBytes = s.ivPad :=
  beBytes_words2 _ s.ivPad_length

theorem State.fieldsMade_encBytes : s.fieldsMade.encBytes = xorBytes s.priceBytes s.ivPad :=
  beBytes_words2 _ (by simp [xorBytes])

theorem State.fieldsMade_digestBytes : s.fieldsMade.digestBytes = s.signature :=
  beBytes_words5 _ s.signature_length

theorem State.fieldsMade_sigBytes : s.fieldsMade.sigBytes = slice s.signature 0 4 :=
  beBytes4_wordAt _ (by simp [slice])

/-- The message of the fields made (R222 step 6). -/
theorem State.fieldsMade_fieldMessage :
    s.fieldsMade.fieldMessage = message s.ivBytes (xorBytes s.priceBytes s.ivPad) (slice s.signature 0 4) := by
  rw [State.fieldMessage, s.fieldsMade_ivBytes, s.fieldsMade_encBytes, s.fieldsMade_sigBytes]

end

/-- The state with a token made from the price and the time sample. -/
def State.tokenMade (s : State) : State := s.timeStamped.fieldsMade.tokenEncoded

/-- ENCODE on committed keys and a time sample in range (R222). -/
theorem exec_encodeToken_of_inRange {s : State} (hk : s.keysValid = true) (h : s.timeUsec.toNat ≤ 999999) :
    exec .encodeToken s = finish .ok 0#32 s.tokenMade := by
  have hrange : ¬ s.usecOutOfRange = true := mt (usecOutOfRange_iff s).mp h.not_gt
  rw [exec, execEncodeToken, keyGate_valid _ _ _ hk, if_neg hrange, State.tokenMade, State.tokenEncoded,
    State.fieldsMade_fieldMessage]
  dsimp only
  rw [s.setIv_timeIv, ← s.timeStamped_ivBytes]
  rfl

/-- ENCODE on committed keys and a time sample out of range (R222). -/
theorem exec_encodeToken_of_outOfRange {s : State} (hk : s.keysValid = true) (h : 999999 < s.timeUsec.toNat) :
    exec .encodeToken s = raise .range rangeInfo s := by
  rw [exec, execEncodeToken, keyGate_valid _ _ _ hk, if_pos ((usecOutOfRange_iff s).mpr h)]

section
variable (s : State)

theorem State.tokenMade_ivBytes : s.tokenMade.ivBytes = s.timeStamped.ivBytes := s.timeStamped.fieldsMade_ivBytes

theorem State.tokenMade_padBytes : s.tokenMade.padBytes = slice (hmacSha1 s.ekBytes s.tokenMade.ivBytes) 0 8 := by
  rw [s.tokenMade_ivBytes]
  exact s.timeStamped.fieldsMade_padBytes

theorem State.tokenMade_encBytes : s.tokenMade.encBytes = xorBytes s.priceBytes s.tokenMade.padBytes := by
  rw [s.tokenMade_padBytes, s.tokenMade_ivBytes]
  exact s.timeStamped.fieldsMade_encBytes

theorem State.tokenMade_digestBytes :
    s.tokenMade.digestBytes = hmacSha1 s.ikBytes (s.priceBytes ++ s.tokenMade.ivBytes) := by
  rw [s.tokenMade_ivBytes]
  exact s.timeStamped.fieldsMade_digestBytes

theorem State.tokenMade_sigBytes : s.tokenMade.sigBytes = s.tokenMade.digestBytes.take 4 := by
  rw [s.tokenMade_digestBytes, s.tokenMade_ivBytes]
  exact s.timeStamped.fieldsMade_sigBytes

theorem State.tokenMade_sigCalc : s.tokenMade.sigCalc = s.tokenMade.sig := by
  simp only [State.tokenMade, State.tokenEncoded, State.fieldsMade, State.setToken_sigCalc, State.setSig_sigCalc,
    State.setSigCalc_sigCalc, State.setToken_sig, State.setSig_sig]

theorem State.tokenMade_tokenBytes : s.tokenMade.tokenBytes = b64uEnc s.tokenMade.fieldMessage ++ [0x00#8, 0x00#8] :=
  s.timeStamped.fieldsMade.tokenEncoded_tokenBytes

theorem State.tokenMade_accepted : tokenAccepted s.tokenMade := tokenAccepted_setToken _ _

end

/-- ENCODE writes its registers and nothing else (R222). -/
theorem State.tokenMade_complete_frame {s t : State} (h : t = s.tokenMade.complete .ok 0#32) :
    t = { s with iv := t.iv, padHi := t.padHi, padLo := t.padLo, encPriceHi := t.encPriceHi,
                 encPriceLo := t.encPriceLo, digest := t.digest, sigCalc := t.sigCalc, sig := t.sig,
                 token := t.token, tokenLen := t.tokenLen, result := t.result, errInfo := t.errInfo,
                 done := t.done, eng := t.eng } := by
  subst h
  simp only [State.complete, State.tokenMade, State.tokenEncoded, State.setToken, State.fieldsMade, State.setSig,
    State.setSigCalc, State.setDigest, State.setEnc, State.setPad, State.timeStamped]

/-- Settles O33: the two failures, and the registers that `State.tokenMade` holds. -/
theorem encodeMakesToken : Obligations.EncodeMakesToken := by
  refine ⟨fun s hk => keyedCommandsWithoutKeysRaiseNoKeys .encodeToken s rfl hk,
    fun s hk h => exec_encodeToken_of_outOfRange hk h, fun s hk h => ?_⟩
  have hiv : s.tokenMade.ivBytes = s.timeIv := s.tokenMade_ivBytes.trans s.timeStamped_ivBytes
  have henc : ∀ i, i < 8 →
      s.tokenMade.encBytes.getD i 0#8 = s.priceBytes.getD i 0#8 ^^^ s.tokenMade.padBytes.getD i 0#8 := fun i _ => by
    rw [s.tokenMade_encBytes, xorBytes_getD (by simp)]
  exact ⟨_, exec_encodeToken_of_inRange hk h, ⟨rfl, rfl, rfl, rfl⟩, hiv, s.tokenMade_padBytes, henc,
    s.tokenMade_digestBytes, s.tokenMade_sigBytes, s.tokenMade_sigCalc, s.tokenMade_tokenBytes, s.tokenMade_accepted,
    State.tokenMade_complete_frame rfl⟩

/-! ### The primitive sequence (R224) -/

/-- The commands of R224. -/
def encodeSequence : List Instr := [.timeEnc, .hmacPad, .xorMask, .sigGen, .b64Enc]

/-- The primitive sequence of R224 makes the token. -/
theorem execAll_encodeSequence {s : State} (hk : s.keysValid = true) (h : s.timeUsec.toNat ≤ 999999) :
    execAll encodeSequence s = .next (s.tokenMade.complete .ok 0#32) := by
  have hpad := exec_hmacPad_of_keysValid (s := s.timeStamped.complete .ok 0#32) (by simpa using hk)
  have hsign := exec_sigGen_of_keysValid (s := s.timeStamped.padDerived.xorMasked.complete .ok 0#32)
    (by simpa using hk)
  rw [encodeSequence, execAll_cons (exec_timeEnc_of_inRange h),
    execAll_cons hpad, State.complete_padDerived, State.complete_complete,
    execAll_cons (exec_xorMask _), State.complete_xorMasked, State.complete_complete,
    execAll_cons hsign, State.complete_signed, State.complete_complete,
    execAll_cons (exec_b64Enc _), State.complete_tokenEncoded, State.complete_complete,
    State.padDerived_xorMasked_signed, execAll, State.tokenMade]

/-- Every command of R224's sequence completes with RESULT = 0 on committed keys and a time sample in range, and
leaves both. -/
theorem exec_encodeSequence_ok {i : Instr} (hi : i ∈ encodeSequence) {s : State} (hk : s.keysValid = true)
    (h : s.timeUsec.toNat ≤ 999999) :
    ∃ t, exec i s = .next t ∧ t.result = 0#4 ∧ t.keysValid = true ∧ t.timeUsec.toNat ≤ 999999 := by
  simp only [encodeSequence, List.mem_cons, List.not_mem_nil, or_false] at hi
  obtain rfl | rfl | rfl | rfl | rfl := hi
  · exact ⟨_, exec_timeEnc_of_inRange h, rfl, hk, h⟩
  · exact ⟨_, exec_hmacPad_of_keysValid hk, rfl, hk, h⟩
  · exact ⟨_, exec_xorMask s, rfl, hk, h⟩
  · exact ⟨_, exec_sigGen_of_keysValid hk, rfl, hk, h⟩
  · exact ⟨_, exec_b64Enc s, rfl, hk, h⟩

/-- So every run of such commands does. -/
theorem execAll_encodeSequence_ok {p : List Instr} (hp : p ⊆ encodeSequence) (hne : p ≠ []) {s : State}
    (hk : s.keysValid = true) (h : s.timeUsec.toNat ≤ 999999) :
    ∃ u, execAll p s = .next u ∧ u.result = 0#4 := by
  induction p generalizing s with
  | nil => exact absurd rfl hne
  | cons i is ih =>
    obtain ⟨hi, his⟩ := List.cons_subset.mp hp
    obtain ⟨t, ht, hresult, htk, hth⟩ := exec_encodeSequence_ok hi hk h
    rw [execAll_cons ht]
    cases is with
    | nil => exact ⟨t, rfl, hresult⟩
    | cons => exact ih his (List.cons_ne_nil _ _) htk hth

/-- Settles O35: both ways end in `State.tokenMade`; without keys TIME_ENC completes all the same. -/
theorem encodeEqualsPrimitiveSequence : Obligations.EncodeEqualsPrimitiveSequence := by
  refine fun s h => ⟨fun hk => ⟨?_, fun p hp hne => ?_⟩, fun hk => ⟨?_, ?_⟩⟩
  · exact ⟨_, exec_encodeToken_of_inRange hk h, execAll_encodeSequence hk h⟩
  · exact execAll_encodeSequence_ok hp.subset hne hk h
  · exact keyedCommandsWithoutKeysRaiseNoKeys .encodeToken s rfl hk
  · exact ⟨_, exec_timeEnc_of_inRange h, rfl⟩

/-! ## DECODE (R223, R225 45_token.md) -/

/-- The price bytes that the encrypted price and the pad of the IV give (R223 step 6). -/
def State.recoveredPrice (s : State) : List Byte := xorBytes s.encBytes s.ivPad

/-- The signature digest of the recovered price and the IV (R223 step 7). -/
def State.recoveredDigest (s : State) : List Byte := sigDigest s s.recoveredPrice s.ivBytes

@[simp] theorem State.recoveredPrice_length (s : State) : s.recoveredPrice.length = 8 := by
  simp [State.recoveredPrice, xorBytes]

@[simp] theorem State.recoveredDigest_length (s : State) : s.recoveredDigest.length = 20 := hmacSha1_length _ _

/-- The state with pad, price and signature recomputed from the fields in IV and ENC_PRICE (R223 steps 5 to 7). -/
def State.fieldsChecked (s : State) : State :=
  (((s.setPad s.ivPad).setPrice s.recoveredPrice).setDigest s.recoveredDigest).setSigCalc
    (slice s.recoveredDigest 0 4)

/-- The price is unmasked with the pad of the IV. -/
theorem State.padDerived_xorUnmasked (s : State) :
    s.padDerived.xorUnmasked = s.padDerived.setPrice s.recoveredPrice := by
  rw [← State.setPrice_xorBytes, State.padDerived_padBytes]
  rfl

/-- The signature that SIG_CHK computes is made from the recovered price. -/
theorem State.padDerived_xorUnmasked_signature (s : State) :
    s.padDerived.xorUnmasked.signature = s.recoveredDigest := by
  have hprice : s.padDerived.xorUnmasked.priceBytes = s.recoveredPrice := by
    rw [State.xorUnmasked_priceBytes, State.padDerived_padBytes]
    rfl
  rw [State.signature, hprice]
  rfl

/-- HMAC_PAD, XOR_UNMASK and SIG_CHK's signature check the fields (R225); the pad digest is overwritten. -/
theorem State.padDerived_xorUnmasked_sigComputed (s : State) :
    s.padDerived.xorUnmasked.sigComputed = s.fieldsChecked := by
  rw [State.sigComputed, State.padDerived_xorUnmasked_signature, State.padDerived_xorUnmasked]
  rfl

section
variable (s : State)

theorem State.fieldsChecked_ivBytes : s.fieldsChecked.ivBytes = s.ivBytes := by
  simp [State.ivBytes, State.fieldsChecked]

theorem State.fieldsChecked_encBytes : s.fieldsChecked.encBytes = s.encBytes := by
  simp [State.encBytes, State.fieldsChecked]

theorem State.fieldsChecked_sigBytes : s.fieldsChecked.sigBytes = s.sigBytes := by
  simp [State.sigBytes, State.fieldsChecked]

theorem State.fieldsChecked_padBytes : s.fieldsChecked.padBytes = s.ivPad :=
  beBytes_words2 _ s.ivPad_length

theorem State.fieldsChecked_priceBytes : s.fieldsChecked.priceBytes = s.recoveredPrice :=
  beBytes_words2 _ s.recoveredPrice_length

theorem State.fieldsChecked_digestBytes : s.fieldsChecked.digestBytes = s.recoveredDigest :=
  beBytes_words5 _ s.recoveredDigest_length

theorem State.fieldsChecked_sigCalcBytes : s.fieldsChecked.sigCalcBytes = slice s.recoveredDigest 0 4 :=
  beBytes4_wordAt _ (by simp [slice])

/-- The words compared by the verdict are the prefixes compared by R223 step 10. -/
theorem State.fieldsChecked_match_iff :
    s.fieldsChecked.sigCalc = s.fieldsChecked.sig ↔ slice s.recoveredDigest 0 4 = s.sigBytes := by
  rw [← s.fieldsChecked_sigCalcBytes, ← s.fieldsChecked_sigBytes]
  exact beBytes4_inj.symm

end

@[simp] theorem State.complete_fieldsChecked (s : State) (c : ResultCode) (x : Word) :
    (s.complete c x).fieldsChecked = s.fieldsChecked.complete c x := rfl

/-- The verdict on equal prefixes: price and time stand, and AUTH_OK is set (R223). -/
def State.authenticated (s : State) : State := { s with tsSec := s.iv[0], tsUsec := s.iv[1], authOk := true }

/-- The verdict on different prefixes: price and time are zero, and AUTH_OK is cleared (R223). -/
def State.rejected (s : State) : State :=
  { s with priceHi := 0#32, priceLo := 0#32, tsSec := 0#32, tsUsec := 0#32, authOk := false }

@[simp] theorem State.authenticated_authOk (s : State) : s.authenticated.authOk = true := rfl
@[simp] theorem State.rejected_authOk (s : State) : s.rejected.authOk = false := rfl

/-- The fields of a token's message in the registers (R223 step 4). -/
theorem State.tokenDecoded_bytes (s : State) :
    s.tokenDecoded.ivBytes = slice s.tokenMessage 0 16 ∧ s.tokenDecoded.encBytes = slice s.tokenMessage 16 24 ∧
    s.tokenDecoded.sigBytes = slice s.tokenMessage 24 28 :=
  s.setFields_bytes (b64uDec_length s.tokenChars)

/-- The price that the message `m` of a token carries under the keys of `s` (R223 steps 5 and 6). -/
def messagePrice (s : State) (m : List Byte) : List Byte :=
  xorBytes (slice m 16 24) (slice (padDigest s (slice m 0 16)) 0 8)

/-- The signature digest of the message `m` under the keys of `s` (R223 step 7). -/
def messageDigest (s : State) (m : List Byte) : List Byte := sigDigest s (messagePrice s m) (slice m 0 16)

theorem State.tokenDecoded_ivPad (s : State) :
    s.tokenDecoded.ivPad = slice (padDigest s (slice s.tokenMessage 0 16)) 0 8 := by
  obtain ⟨hiv, -, -⟩ := s.tokenDecoded_bytes
  rw [State.ivPad, hiv]
  rfl

theorem State.tokenDecoded_recoveredPrice (s : State) :
    s.tokenDecoded.recoveredPrice = messagePrice s s.tokenMessage := by
  obtain ⟨-, henc, -⟩ := s.tokenDecoded_bytes
  rw [State.recoveredPrice, henc, s.tokenDecoded_ivPad, messagePrice]

theorem State.tokenDecoded_recoveredDigest (s : State) :
    s.tokenDecoded.recoveredDigest = messageDigest s s.tokenMessage := by
  obtain ⟨hiv, -, -⟩ := s.tokenDecoded_bytes
  rw [State.recoveredDigest, s.tokenDecoded_recoveredPrice, hiv]
  rfl

/-- The state that DECODE reaches before its verdict. -/
def State.tokenChecked (s : State) : State := s.tokenDecoded.fieldsChecked

/-- DECODE on committed keys and an accepted token (R223). -/
theorem exec_decodeToken_of_accepted {s : State} (hk : s.keysValid = true) (h : tokenAccepted s) :
    exec .decodeToken s =
      if slice (messageDigest s s.tokenMessage) 0 4 = slice s.tokenMessage 24 28 then
        finish .ok 0#32 s.tokenChecked.authenticated
      else finish .authFail 0#32 s.tokenChecked.rejected := by
  rw [exec, execDecodeToken, keyGate_valid _ _ _ hk, formatFailure_of_accepted h, State.tokenChecked,
    State.fieldsChecked, s.tokenDecoded_recoveredDigest, s.tokenDecoded_recoveredPrice, s.tokenDecoded_ivPad]
  refine if_congr Iff.rfl ?_ ?_
  · rfl
  · rfl

/-- The verdict compares the recomputed prefix with the carried one, word for word (R223 step 10). -/
theorem State.tokenChecked_match_iff (s : State) :
    s.tokenChecked.sigCalc = s.tokenChecked.sig ↔
      slice (messageDigest s s.tokenMessage) 0 4 = slice s.tokenMessage 24 28 := by
  obtain ⟨-, -, hsig⟩ := s.tokenDecoded_bytes
  rw [← hsig, ← s.tokenDecoded_recoveredDigest]
  exact s.tokenDecoded.fieldsChecked_match_iff

theorem exec_decodeToken_of_match {s : State} (hk : s.keysValid = true) (h : tokenAccepted s)
    (hm : s.tokenChecked.sigCalc = s.tokenChecked.sig) :
    exec .decodeToken s = finish .ok 0#32 s.tokenChecked.authenticated :=
  (exec_decodeToken_of_accepted hk h).trans (if_pos (s.tokenChecked_match_iff.mp hm))

theorem exec_decodeToken_of_mismatch {s : State} (hk : s.keysValid = true) (h : tokenAccepted s)
    (hm : s.tokenChecked.sigCalc ≠ s.tokenChecked.sig) :
    exec .decodeToken s = finish .authFail 0#32 s.tokenChecked.rejected :=
  (exec_decodeToken_of_accepted hk h).trans (if_neg (mt s.tokenChecked_match_iff.mpr hm))

/-- DECODE on committed keys and a token that fails a check (R195, R223). -/
theorem exec_decodeToken_of_failure {s : State} {info : Word} (hk : s.keysValid = true)
    (h : formatFailure s = some info) :
    exec .decodeToken s = raise .format info { s with authOk := false } := by
  rw [exec, execDecodeToken, keyGate_valid _ _ _ hk, h]

/-- DECODE writes its registers and nothing else, on either verdict (R223). -/
theorem State.verdict_frame {s t : State} {c : ResultCode} {x : Word}
    (h : t = s.tokenChecked.authenticated.complete c x ∨ t = s.tokenChecked.rejected.complete c x) :
    t = { s with iv := t.iv, encPriceHi := t.encPriceHi, encPriceLo := t.encPriceLo, sig := t.sig,
                 padHi := t.padHi, padLo := t.padLo, digest := t.digest, sigCalc := t.sigCalc,
                 priceHi := t.priceHi, priceLo := t.priceLo, tsSec := t.tsSec, tsUsec := t.tsUsec,
                 authOk := t.authOk, result := t.result, errInfo := t.errInfo, done := t.done, eng := t.eng } := by
  rcases h with rfl | rfl <;>
    simp only [State.complete, State.authenticated, State.rejected, State.tokenChecked, State.fieldsChecked,
      State.setSigCalc, State.setDigest, State.setPrice, State.setPad, State.tokenDecoded, State.setFields,
      State.setSig, State.setEnc, State.setIv]

section
variable (s : State)

theorem State.tokenChecked_fieldMessage : s.tokenChecked.fieldMessage = s.tokenMessage := by
  rw [State.fieldMessage, State.tokenChecked, State.fieldsChecked_ivBytes, State.fieldsChecked_encBytes,
    State.fieldsChecked_sigBytes]
  exact s.tokenDecoded_fieldMessage

theorem State.tokenChecked_padBytes :
    s.tokenChecked.padBytes = slice (hmacSha1 s.ekBytes s.tokenChecked.ivBytes) 0 8 := by
  rw [State.tokenChecked, State.fieldsChecked_padBytes, State.fieldsChecked_ivBytes]
  rfl

theorem State.tokenChecked_priceBytes :
    s.tokenChecked.priceBytes = xorBytes s.tokenChecked.encBytes s.tokenChecked.padBytes := by
  rw [State.tokenChecked, State.fieldsChecked_priceBytes, State.fieldsChecked_encBytes, State.fieldsChecked_padBytes,
    State.recoveredPrice]

theorem State.tokenChecked_digestBytes :
    s.tokenChecked.digestBytes = hmacSha1 s.ikBytes (s.tokenChecked.priceBytes ++ s.tokenChecked.ivBytes) := by
  rw [State.tokenChecked, State.fieldsChecked_digestBytes, State.fieldsChecked_priceBytes, State.fieldsChecked_ivBytes]
  rfl

theorem State.tokenChecked_sigCalcBytes : s.tokenChecked.sigCalcBytes = s.tokenChecked.digestBytes.take 4 := by
  rw [State.tokenChecked, State.fieldsChecked_sigCalcBytes, State.fieldsChecked_digestBytes, slice_zero]

end

/-- Settles O34, by the answers of the decode checks and the two verdicts. -/
theorem decodeChecksToken : Obligations.DecodeChecksToken := by
  refine ⟨fun s hk => keyedCommandsWithoutKeysRaiseNoKeys .decodeToken s rfl hk,
    fun s hk hlen => exec_decodeToken_of_failure hk (formatFailure_of_length hlen),
    fun s j hk hlen hbad => exec_decodeToken_of_failure hk (formatFailure_of_firstBad hlen hbad), fun s hk h => ?_⟩
  have hdigest := s.tokenChecked_priceBytes ▸ s.tokenChecked_digestBytes
  by_cases hm : s.tokenChecked.sigCalc = s.tokenChecked.sig
  · exact ⟨_, exec_decodeToken_of_match hk h hm, s.tokenChecked_fieldMessage, s.tokenChecked_padBytes, hdigest,
      s.tokenChecked_sigCalcBytes,
      fun _ => ⟨⟨rfl, rfl, rfl, rfl⟩, rfl, s.tokenChecked_priceBytes, s.tokenChecked.ivBytes_take_eight.symm⟩,
      fun hne => absurd hm hne, State.verdict_frame (.inl rfl)⟩
  · exact ⟨_, exec_decodeToken_of_mismatch hk h hm, s.tokenChecked_fieldMessage, s.tokenChecked_padBytes, hdigest,
      s.tokenChecked_sigCalcBytes, fun heq => absurd heq hm,
      fun _ => ⟨⟨rfl, rfl, rfl, rfl⟩, rfl, rfl, rfl, rfl, rfl⟩, State.verdict_frame (.inr rfl)⟩

/-! ### The primitive sequence (R225) -/

/-- The primitive sequence of R225 ends with SIG_CHK on the fields, the pad and the price recomputed from the token. -/
theorem execAll_decodeSequence {s : State} (hk : s.keysValid = true) (h : tokenAccepted s) :
    execAll [.b64Dec, .hmacPad, .xorUnmask, .sigChk] s =
      execAll [.sigChk] (s.tokenDecoded.padDerived.xorUnmasked.complete .ok 0#32) := by
  have hpad := exec_hmacPad_of_keysValid (s := s.tokenDecoded.complete .ok 0#32) (by simpa using hk)
  rw [execAll_cons (exec_b64Dec_of_accepted h),
    execAll_cons hpad, State.complete_padDerived, State.complete_complete,
    execAll_cons (exec_xorUnmask _), State.complete_xorUnmasked, State.complete_complete]

/-- SIG_CHK at the end of the sequence computes what DECODE computes (R225). -/
theorem State.sequence_sigComputed (s : State) :
    (s.tokenDecoded.padDerived.xorUnmasked.complete .ok 0#32).sigComputed = s.tokenChecked.complete .ok 0#32 := by
  rw [State.complete_sigComputed, State.padDerived_xorUnmasked_sigComputed, State.tokenChecked]

/-- The sequence of R225 on a token whose prefix matches. -/
theorem execAll_decodeSequence_of_match {s : State} (hk : s.keysValid = true) (h : tokenAccepted s)
    (hm : s.tokenChecked.sigCalc = s.tokenChecked.sig) :
    execAll [.b64Dec, .hmacPad, .xorUnmask, .sigChk] s =
      .next (State.complete .ok 0#32 { s.tokenChecked with authOk := true }) := by
  have hcheck : exec .sigChk (s.tokenDecoded.padDerived.xorUnmasked.complete .ok 0#32) = _ :=
    execSigChk_of_match (by simpa using hk) (by rw [s.sequence_sigComputed]; exact hm)
  rw [execAll_decodeSequence hk h, execAll_cons hcheck, s.sequence_sigComputed]
  rfl

/-- The sequence of R225 on a token whose prefix differs. -/
theorem execAll_decodeSequence_of_mismatch {s : State} (hk : s.keysValid = true) (h : tokenAccepted s)
    (hm : s.tokenChecked.sigCalc ≠ s.tokenChecked.sig) :
    execAll [.b64Dec, .hmacPad, .xorUnmask, .sigChk] s =
      .next (State.complete .authFail 0#32 { s.tokenChecked with authOk := false }) := by
  have hcheck : exec .sigChk (s.tokenDecoded.padDerived.xorUnmasked.complete .ok 0#32) = _ :=
    execSigChk_of_mismatch (by simpa using hk) (by rw [s.sequence_sigComputed]; exact hm)
  rw [execAll_decodeSequence hk h, execAll_cons hcheck, s.sequence_sigComputed]
  rfl

/-- Settles O36, by the two outcomes of SIG_CHK: TIME_DEC or the zeroing make DECODE's verdict of it. -/
theorem decodeEqualsPrimitiveSequence : Obligations.DecodeEqualsPrimitiveSequence := by
  refine fun s h => ⟨fun hk => ?_, fun hk => ⟨?_, _, exec_b64Dec_of_accepted h, s.tokenDecoded_fieldMessage⟩⟩
  · by_cases hm : s.tokenChecked.sigCalc = s.tokenChecked.sig
    · exact ⟨_, execAll_decodeSequence_of_match hk h hm, fun _ => exec_decodeToken_of_match hk h hm,
        fun hne => absurd hm hne⟩
    · exact ⟨_, execAll_decodeSequence_of_mismatch hk h hm, fun heq => absurd heq hm,
        fun _ => exec_decodeToken_of_mismatch hk h hm⟩
  · exact keyedCommandsWithoutKeysRaiseNoKeys .decodeToken s rfl hk

/-! ## DECODE of ENCODE (R226) -/

/-- ENCODE keeps the keys (R222). -/
theorem State.tokenMade_keys (s : State) :
    s.tokenMade.keysValid = s.keysValid ∧ s.tokenMade.ekBytes = s.ekBytes ∧ s.tokenMade.ikBytes = s.ikBytes := by
  simp [State.ekBytes, State.ikBytes, State.tokenMade, State.tokenEncoded, State.fieldsMade, State.timeStamped]

/-- The fields of the token that ENCODE made are the ones it left in the registers. -/
theorem State.tokenMade_tokenDecoded (s : State) : s.tokenMade.tokenDecoded = s.tokenMade := by
  have hmessage : s.tokenMade.tokenMessage = s.tokenMade.fieldMessage :=
    s.timeStamped.fieldsMade.tokenEncoded_tokenMessage
  rw [State.tokenDecoded, hmessage, State.setFields_of_fieldMessage]

/-- Unmasking with the same pad gives the price back (R183). -/
theorem State.tokenMade_recoveredPrice (s : State) : s.tokenMade.recoveredPrice = s.priceBytes := by
  obtain ⟨-, hek, -⟩ := s.tokenMade_keys
  have hpad : s.tokenMade.ivPad = s.tokenMade.padBytes := by
    rw [s.tokenMade_padBytes, State.ivPad, padDigest, hek]
  rw [State.recoveredPrice, hpad, s.tokenMade_encBytes, State.priceBytes, State.padBytes, xorBytes_words,
    xorBytes_words, xor_cancel_right, xor_cancel_right]

/-- So the recomputed signature is the one that ENCODE made. -/
theorem State.tokenMade_recoveredDigest (s : State) : s.tokenMade.recoveredDigest = s.tokenMade.digestBytes := by
  obtain ⟨-, -, hik⟩ := s.tokenMade_keys
  rw [State.recoveredDigest, s.tokenMade_recoveredPrice, s.tokenMade_digestBytes, sigDigest, hik]

/-- DECODE checks the fields as ENCODE left them. -/
theorem State.tokenMade_tokenChecked (s : State) :
    (s.tokenMade.complete .ok 0#32).tokenChecked = s.tokenMade.fieldsChecked.complete .ok 0#32 := by
  rw [State.tokenChecked, State.complete_tokenDecoded, s.tokenMade_tokenDecoded, State.complete_fieldsChecked]

/-- So the recomputed prefix is the one in SIG. -/
theorem State.tokenMade_match (s : State) : s.tokenMade.fieldsChecked.sigCalc = s.tokenMade.fieldsChecked.sig := by
  rw [State.fieldsChecked_match_iff, s.tokenMade_recoveredDigest, s.tokenMade_sigBytes, slice_zero]

/-- The recovered price and the IV are those that were encoded. -/
theorem State.tokenMade_price_time (s : State) :
    s.tokenMade.fieldsChecked.priceHi = s.priceHi ∧ s.tokenMade.fieldsChecked.priceLo = s.priceLo ∧
      s.tokenMade.fieldsChecked.iv = s.timeStamped.iv := by
  have hprice : s.tokenMade.fieldsChecked.priceBytes = s.priceBytes :=
    s.tokenMade.fieldsChecked_priceBytes.trans s.tokenMade_recoveredPrice
  obtain ⟨hhi, hlo⟩ := beBytes4_append_inj hprice
  exact ⟨hhi, hlo, by simp [State.fieldsChecked, State.tokenMade, State.tokenEncoded, State.fieldsMade]⟩

/-- Settles O37: DECODE reads back the fields that ENCODE left, and recomputes price and signature from them. -/
theorem decodeOfEncodeRestoresPriceAndTime : Obligations.DecodeOfEncodeRestoresPriceAndTime := by
  intro s hk h
  have hmatch : (s.tokenMade.complete .ok 0#32).tokenChecked.sigCalc =
      (s.tokenMade.complete .ok 0#32).tokenChecked.sig := by
    rw [s.tokenMade_tokenChecked]
    exact s.tokenMade_match
  obtain ⟨hvalid, -, -⟩ := s.tokenMade_keys
  have hdecode := exec_decodeToken_of_match (s := s.tokenMade.complete .ok 0#32) (hvalid.trans hk) s.tokenMade_accepted
    hmatch
  obtain ⟨hhi, hlo, hiv⟩ := s.tokenMade_price_time
  rw [s.tokenMade_tokenChecked] at hdecode
  refine ⟨_, execAll_pair (exec_encodeToken_of_inRange hk h) hdecode, ⟨rfl, rfl, rfl, rfl⟩, rfl, hhi, hlo, ?_, ?_⟩
  · exact congrArg (·[0]) hiv
  · exact congrArg (·[1]) hiv

/-! ## Changed tokens (R228) -/

/-- DECODE's RESULT on an accepted token: OK exactly when the prefix recomputed from the message's first 24 bytes is
its last 4 bytes, else AUTH_FAIL (R223 step 10). -/
theorem exec_decodeToken_result {s : State} (hk : s.keysValid = true) (h : tokenAccepted s) :
    ∃ t, exec .decodeToken s = .next t ∧
      (t.result = 0#4 ↔ (messageDigest s s.tokenMessage).take 4 = s.tokenMessage.drop 24) ∧
      (t.result = 0#4 ∨ t.result = 4#4) := by
  have hsig : slice s.tokenMessage 24 28 = s.tokenMessage.drop 24 :=
    List.take_of_length_le (by simp [State.tokenMessage])
  rw [exec_decodeToken_of_accepted hk h, hsig, slice_zero]
  split
  next hm => exact ⟨_, rfl, iff_of_true rfl hm, .inl rfl⟩
  next hm => exact ⟨_, rfl, iff_of_false (by decide : (4#4 : BitVec 4) ≠ 0#4) hm, .inr rfl⟩

/-- The recomputed signature depends on the message's first 24 bytes alone (R228 (a)). -/
theorem messageDigest_congr (s : State) {m m' : List Byte} (h : m.take 24 = m'.take 24) :
    messageDigest s m = messageDigest s m' := by
  have hslice : ∀ a b, b ≤ 24 → slice m a b = slice m' a b := fun a b hb => by
    have hcut := congrArg (fun l => (l.take b).drop a) h
    simpa [slice, List.take_take, List.drop_take, hb] using hcut
  rw [messageDigest, messageDigest, messagePrice, messagePrice, hslice 0 16 (by decide), hslice 16 24 (by decide)]

/-- The decode checks pass on accepted tokens only (R195). -/
theorem tokenAccepted_or_formatFailure (s : State) : tokenAccepted s ∨ ∃ info, formatFailure s = some info := by
  obtain ⟨-, hf⟩ | ⟨-, j, -, -, hf⟩ | ⟨hlen, hgood, -⟩ := formatFailure_cases s
  · exact .inr ⟨_, hf⟩
  · exact .inr ⟨_, hf⟩
  · exact .inl ⟨hlen, (firstBadChar_eq_none s).mp hgood⟩

/-- Only an accepted token can be decoded with OK (R223). -/
theorem tokenAccepted_of_decoded {s t : State} (hk : s.keysValid = true) (ht : exec .decodeToken s = .next t)
    (hr : t.result = 0#4) : tokenAccepted s := by
  refine (tokenAccepted_or_formatFailure s).resolve_right ?_
  rintro ⟨info, hf⟩
  rw [exec_decodeToken_of_failure hk hf] at ht
  cases ht
  exact absurd hr (by decide : (2#4 : BitVec 4) ≠ 0#4)

/-- Settles O38, by the comparison that DECODE makes on the changed message. -/
theorem changedTokenIsAcceptedExactlyOnMatch : Obligations.ChangedTokenIsAcceptedExactlyOnMatch := by
  intro s t tok hk ht hr hacc'
  have hacc := tokenAccepted_of_decoded hk ht hr
  obtain ⟨t', ht', hok', hcases'⟩ := exec_decodeToken_result (s := { s with token := tok }) hk hacc'
  obtain ⟨u, hu, hok, -⟩ := exec_decodeToken_result hk hacc
  obtain rfl : u = t := by simpa [hu] using ht
  have hcarried := hok.mp hr
  refine ⟨t', ht', fun hsame hsig => ?_, fun _ => ⟨hok', hcases'⟩, fun v v' hv hv' hchars htail => ?_⟩
  · refine hcases'.resolve_left fun h0 => hsig ?_
    rw [← hok'.mp h0, ← hcarried]
    exact congrArg (List.take 4) (messageDigest_congr s hsame)
  · have hmessage := (tokensAgreeUpToTailBits s { s with token := tok } v v' hacc hacc' hv hv').mpr ⟨hchars, htail⟩
    rw [hok', ← hmessage, ← hcarried]
    rfl

/-! ## The operands of ENCODE and DECODE (R221) -/

/-- Two states agree on every data register that ENCODE writes (R222). -/
def EncodeOutputsAgree (t t' : State) : Prop :=
  t.iv = t'.iv ∧ t.padHi = t'.padHi ∧ t.padLo = t'.padLo ∧ t.encPriceHi = t'.encPriceHi ∧
  t.encPriceLo = t'.encPriceLo ∧ t.digest = t'.digest ∧ t.sig = t'.sig ∧ t.sigCalc = t'.sigCalc ∧
  t.token = t'.token ∧ t.tokenLen = t'.tokenLen

theorem EncodeOutputsAgree.complete {u u' : State} (h : EncodeOutputsAgree u u') (c : ResultCode) (x : Word) :
    EncodeOutputsAgree (u.complete c x) (u'.complete c x) :=
  h

/-- What ENCODE writes depends on the keys, the price and the time sample. -/
theorem State.tokenMade_congr {s s' : State} (hek : s.ek = s'.ek) (hik : s.ik = s'.ik)
    (hhi : s.priceHi = s'.priceHi) (hlo : s.priceLo = s'.priceLo) (hsec : s.timeSec = s'.timeSec)
    (husec : s.timeUsec = s'.timeUsec) :
    EncodeOutputsAgree s.tokenMade s'.tokenMade := by
  have hiv : s.timeStamped.iv = s'.timeStamped.iv := by simp only [State.timeStamped, hsec, husec]
  have hpad : s.timeStamped.ivPad = s'.timeStamped.ivPad := by
    simp only [State.ivPad, padDigest, State.ekBytes, State.ivBytes, State.timeStamped, hek, hsec, husec]
  have hprice : s.timeStamped.priceBytes = s'.timeStamped.priceBytes := by
    simp only [State.priceBytes, State.timeStamped, hhi, hlo]
  have hsig : s.timeStamped.signature = s'.timeStamped.signature := by
    simp only [State.signature, sigDigest, State.ikBytes, State.ivBytes, State.priceBytes, State.timeStamped, hik, hhi,
      hlo, hsec, husec]
  have hmessage : s.timeStamped.fieldsMade.fieldMessage = s'.timeStamped.fieldsMade.fieldMessage := by
    rw [State.fieldsMade_fieldMessage, State.fieldsMade_fieldMessage, State.ivBytes, hiv, hprice, hpad, hsig,
      State.ivBytes]
  simp only [EncodeOutputsAgree, State.tokenMade, State.tokenEncoded, hmessage]
  simp [State.fieldsMade, hiv, hpad, hprice, hsig]

/-- The fields of the message, the pad, the price and the signature, as they stand before the verdict. -/
theorem State.tokenChecked_eq (s : State) :
    s.tokenChecked =
      ((((s.setFields s.tokenMessage).setPad (slice (padDigest s (slice s.tokenMessage 0 16)) 0 8)).setPrice
        (messagePrice s s.tokenMessage)).setDigest (messageDigest s s.tokenMessage)).setSigCalc
        (slice (messageDigest s s.tokenMessage) 0 4) := by
  rw [State.tokenChecked, State.fieldsChecked, s.tokenDecoded_recoveredDigest, s.tokenDecoded_recoveredPrice,
    s.tokenDecoded_ivPad, State.tokenDecoded]

/-- Two states agree on every register that DECODE writes from the token's message (R223). -/
def CheckedAgree (u u' : State) : Prop :=
  u.iv = u'.iv ∧ u.encPriceHi = u'.encPriceHi ∧ u.encPriceLo = u'.encPriceLo ∧ u.sig = u'.sig ∧
  u.padHi = u'.padHi ∧ u.padLo = u'.padLo ∧ u.digest = u'.digest ∧ u.sigCalc = u'.sigCalc ∧
  u.priceHi = u'.priceHi ∧ u.priceLo = u'.priceLo

/-- Two states agree on every data register that DECODE writes, TS included (R223). -/
def DecodeOutputsAgree (t t' : State) : Prop :=
  t.iv = t'.iv ∧ t.encPriceHi = t'.encPriceHi ∧ t.encPriceLo = t'.encPriceLo ∧ t.sig = t'.sig ∧
  t.padHi = t'.padHi ∧ t.padLo = t'.padLo ∧ t.digest = t'.digest ∧ t.sigCalc = t'.sigCalc ∧
  t.priceHi = t'.priceHi ∧ t.priceLo = t'.priceLo ∧ t.tsSec = t'.tsSec ∧ t.tsUsec = t'.tsUsec

section
variable {u u' : State} (h : CheckedAgree u u')
include h

/-- The comparison of the prefixes comes out alike. -/
theorem CheckedAgree.match_iff : u.sigCalc = u.sig ↔ u'.sigCalc = u'.sig := by
  obtain ⟨-, -, -, hsig, -, -, -, hcalc, -, -⟩ := h
  rw [hsig, hcalc]

theorem CheckedAgree.authenticated (c : ResultCode) (x : Word) :
    DecodeOutputsAgree (u.authenticated.complete c x) (u'.authenticated.complete c x) := by
  obtain ⟨hiv, hehi, helo, hsig, hphi, hplo, hdigest, hcalc, hhi, hlo⟩ := h
  exact ⟨hiv, hehi, helo, hsig, hphi, hplo, hdigest, hcalc, hhi, hlo, congrArg (·[0]) hiv, congrArg (·[1]) hiv⟩

theorem CheckedAgree.rejected (c : ResultCode) (x : Word) :
    DecodeOutputsAgree (u.rejected.complete c x) (u'.rejected.complete c x) := by
  obtain ⟨hiv, hehi, helo, hsig, hphi, hplo, hdigest, hcalc, -, -⟩ := h
  exact ⟨hiv, hehi, helo, hsig, hphi, hplo, hdigest, hcalc, rfl, rfl, rfl, rfl⟩

end

/-- What DECODE writes depends on the keys and the message. -/
theorem State.tokenChecked_congr {s s' : State} (hek : s.ek = s'.ek) (hik : s.ik = s'.ik)
    (hm : s.tokenMessage = s'.tokenMessage) :
    CheckedAgree s.tokenChecked s'.tokenChecked := by
  have hpad : padDigest s = padDigest s' := by funext iv; rw [padDigest, padDigest, State.ekBytes, hek, State.ekBytes]
  have hprice : messagePrice s s.tokenMessage = messagePrice s' s'.tokenMessage := by
    rw [messagePrice, messagePrice, hpad, hm]
  have hdigest : messageDigest s s.tokenMessage = messageDigest s' s'.tokenMessage := by
    rw [messageDigest, messageDigest, hprice, hm, sigDigest, sigDigest, State.ikBytes, hik, State.ikBytes]
  rw [s.tokenChecked_eq, s'.tokenChecked_eq, hprice, hdigest, hpad, hm]
  simp [CheckedAgree, State.setFields]

/-- ENCODE's half of R221, by its three outcomes. -/
theorem exec_encodeToken_depends_on_operands {s s' t t' : State} (hv : s.keysValid = s'.keysValid) (hek : s.ek = s'.ek)
    (hik : s.ik = s'.ik) (hhi : s.priceHi = s'.priceHi) (hlo : s.priceLo = s'.priceLo)
    (hsec : s.timeSec = s'.timeSec) (husec : s.timeUsec = s'.timeUsec) (ht : exec .encodeToken s = .next t)
    (ht' : exec .encodeToken s' = .next t') :
    t.result = t'.result ∧ t.errInfo = t'.errInfo ∧
    (t.result = 0#4 → EncodeOutputsAgree t t') := by
  cases hk : s.keysValid with
  | false =>
    rw [keyedCommandsWithoutKeysRaiseNoKeys .encodeToken s rfl hk] at ht
    rw [keyedCommandsWithoutKeysRaiseNoKeys .encodeToken s' rfl (hv ▸ hk)] at ht'
    cases ht
    cases ht'
    exact ⟨rfl, rfl, fun h => absurd h (by decide : (5#4 : BitVec 4) ≠ 0#4)⟩
  | true =>
    obtain h | h := lt_or_ge 999999 s.timeUsec.toNat
    · rw [exec_encodeToken_of_outOfRange hk h] at ht
      rw [exec_encodeToken_of_outOfRange (hv ▸ hk) (husec ▸ h)] at ht'
      cases ht
      cases ht'
      exact ⟨rfl, rfl, fun h => absurd h (by decide : (3#4 : BitVec 4) ≠ 0#4)⟩
    · rw [exec_encodeToken_of_inRange hk h] at ht
      rw [exec_encodeToken_of_inRange (hv ▸ hk) (husec ▸ h)] at ht'
      cases ht
      cases ht'
      exact ⟨by simp, by simp, fun _ => (State.tokenMade_congr hek hik hhi hlo hsec husec).complete _ _⟩

/-- The decode checks read TOKEN_LEN and the 38 characters (R195). -/
theorem formatFailure_congr {s s' : State} (hlen : s.tokenLen = s'.tokenLen) (h : s.tokenChars = s'.tokenChars) :
    formatFailure s = formatFailure s' := by
  rw [formatFailure, formatFailure, hlen, h]

theorem tokenAccepted_congr {s s' : State} (hlen : s.tokenLen = s'.tokenLen) (h : s.tokenChars = s'.tokenChars) :
    tokenAccepted s ↔ tokenAccepted s' := by
  rw [tokenAccepted, tokenAccepted, ← firstBadChar_eq_none, ← firstBadChar_eq_none, hlen, h]

/-- DECODE's half of R221, by its outcomes. -/
theorem exec_decodeToken_depends_on_operands {s s' t t' : State} (hv : s.keysValid = s'.keysValid) (hek : s.ek = s'.ek)
    (hik : s.ik = s'.ik) (hlen : s.tokenLen = s'.tokenLen) (hchars : s.tokenChars = s'.tokenChars)
    (ht : exec .decodeToken s = .next t) (ht' : exec .decodeToken s' = .next t') :
    t.result = t'.result ∧ t.errInfo = t'.errInfo ∧ t.authOk = t'.authOk ∧
    (t.result = 0#4 ∨ t.result = 4#4 → DecodeOutputsAgree t t') := by
  cases hk : s.keysValid with
  | false =>
    rw [keyedCommandsWithoutKeysRaiseNoKeys .decodeToken s rfl hk] at ht
    rw [keyedCommandsWithoutKeysRaiseNoKeys .decodeToken s' rfl (hv ▸ hk)] at ht'
    cases ht
    cases ht'
    exact ⟨rfl, rfl, rfl, fun h => absurd h (by decide : ¬ ((5#4 : BitVec 4) = 0#4 ∨ (5#4 : BitVec 4) = 4#4))⟩
  | true =>
    have hformat := formatFailure_congr hlen hchars
    obtain hacc | ⟨info, hf⟩ := tokenAccepted_or_formatFailure s
    · have hacc' := (tokenAccepted_congr hlen hchars).mp hacc
      have hagree := State.tokenChecked_congr hek hik (congrArg b64uDec hchars)
      by_cases hm : s.tokenChecked.sigCalc = s.tokenChecked.sig
      · rw [exec_decodeToken_of_match hk hacc hm] at ht
        rw [exec_decodeToken_of_match (hv ▸ hk) hacc' (hagree.match_iff.mp hm)] at ht'
        cases ht
        cases ht'
        exact ⟨by simp, by simp, by simp, fun _ => hagree.authenticated _ _⟩
      · rw [exec_decodeToken_of_mismatch hk hacc hm] at ht
        rw [exec_decodeToken_of_mismatch (hv ▸ hk) hacc' (mt hagree.match_iff.mpr hm)] at ht'
        cases ht
        cases ht'
        exact ⟨by simp, by simp, by simp, fun _ => hagree.rejected _ _⟩
    · rw [exec_decodeToken_of_failure hk hf] at ht
      rw [exec_decodeToken_of_failure (hv ▸ hk) (hformat ▸ hf)] at ht'
      cases ht
      cases ht'
      exact ⟨rfl, rfl, rfl, fun h => absurd h (by decide : ¬ ((2#4 : BitVec 4) = 0#4 ∨ (2#4 : BitVec 4) = 4#4))⟩

/-- Settles O40, by the two halves: the first 38 bytes of the buffer are the token's characters. -/
theorem tokenCommandsDependOnOperandsOnly : Obligations.TokenCommandsDependOnOperandsOnly := by
  refine ⟨fun s s' t t' hv hek hik hhi hlo hsec husec ht ht' => ?_,
    fun s s' t t' hv hek hik hlen hbytes ht ht' => ?_⟩
  · exact exec_encodeToken_depends_on_operands hv hek hik hhi hlo hsec husec ht ht'
  · have hchars : s.tokenChars = s'.tokenChars := by
      rw [State.tokenChars, State.tokenChars, slice_zero, slice_zero, hbytes]
    exact exec_decodeToken_depends_on_operands hv hek hik hlen hchars ht ht'

/-! ## The source's known token (R231, vector V1 of 95_test_vectors.md) -/

/-- The source's encryption key. -/
def knownEk : Vector Word 8 :=
  #v[0xB08C70CF#32, 0xBCB0EB6C#32, 0xAB7E82C6#32, 0xB75DA520#32, 0x72AE62B2#32, 0xBF4B990B#32, 0xB80A48D8#32,
    0x141EEC07#32]

/-- The source's integrity key. -/
def knownIk : Vector Word 8 :=
  #v[0xBF77EC55#32, 0xC30130C1#32, 0xD8CD1862#32, 0xED2A4CD2#32, 0xC76AC33B#32, 0xC0C4CE8A#32, 0x3D3BBD3A#32,
    0xD5687792#32]

/-- The source's token in the buffer. -/
def knownToken : Vector Word 10 :=
  #v[0x536A7076#32, 0x52774142#32, 0x346B4237#32, 0x6A457067#32, 0x57354941#32, 0x38703733#32, 0x65773969#32,
    0x6336565A#32, 0x70467350#32, 0x6E410000#32]

/-- The IV that the source's token carries. -/
def knownIv : Vector Word 4 := #v[0x4A3A6F47#32, 0x0001E240#32, 0x7B8C4A60#32, 0x5B9200F2#32]

/-- The message that the source's token carries. -/
def knownMessage : List Byte := beBytes (knownIv.toList ++ [0x9EF77B0F#32, 0x6273A559#32, 0xA45B0F9C#32])

/-- The signature digest of V1. -/
def knownDigest : Vector Word 5 := #v[0xA45B0F9C#32, 0x3A3D602F#32, 0x89BEF540#32, 0x67E74DBC#32, 0x8DFD4B26#32]

/-- The source's token passes the checks and carries `knownMessage`. -/
theorem knownToken_decodes {s : State} (hlen : s.tokenLen = 38#32) (htoken : s.token = knownToken) :
    tokenAccepted s ∧ s.tokenMessage = knownMessage := by
  rw [tokenAccepted, State.tokenMessage, State.tokenChars, State.tokenBytes, htoken]
  exact ⟨⟨hlen, by decide +kernel⟩, by decide +kernel⟩

/-- The pad of V1's IV under the source's encryption key. -/
theorem knownMessage_pad {s : State} (hek : s.ek = knownEk) :
    slice (padDigest s (slice knownMessage 0 16)) 0 8 = beBytes4 0x9EF77B0F#32 ++ beBytes4 0x48228559#32 := by
  rw [padDigest, State.ekBytes, hek]
  decide +kernel

/-- The price under that pad. -/
theorem knownMessage_price {s : State} (hek : s.ek = knownEk) :
    messagePrice s knownMessage = beBytes4 0#32 ++ beBytes4 709959680#32 := by
  rw [messagePrice, knownMessage_pad hek]
  decide +kernel

/-- The signature digest of that price under the source's integrity key. -/
theorem knownMessage_digest {s : State} (hek : s.ek = knownEk) (hik : s.ik = knownIk) :
    messageDigest s knownMessage = beBytes knownDigest.toList := by
  rw [messageDigest, knownMessage_price hek, sigDigest, State.ikBytes, hik]
  decide +kernel

/-- The words that DECODE cuts from V1's message and digest. -/
theorem knownMessage_words :
    words4 (slice knownMessage 0 16) = knownIv ∧
    wordAt (slice knownMessage 16 24) 0 = 0x9EF77B0F#32 ∧ wordAt (slice knownMessage 16 24) 1 = 0x6273A559#32 ∧
    wordAt (slice knownMessage 24 28) 0 = 0xA45B0F9C#32 ∧ words5 (beBytes knownDigest.toList) = knownDigest ∧
    wordAt (slice (beBytes knownDigest.toList) 0 4) 0 = 0xA45B0F9C#32 := by
  decide +kernel

/-- The registers of V1 before the verdict. -/
theorem knownToken_checked {s : State} (hek : s.ek = knownEk) (hik : s.ik = knownIk)
    (hmessage : s.tokenMessage = knownMessage) :
    s.tokenChecked =
      { s with
        iv := knownIv, encPriceHi := 0x9EF77B0F#32, encPriceLo := 0x6273A559#32, sig := 0xA45B0F9C#32
        padHi := 0x9EF77B0F#32, padLo := 0x48228559#32, priceHi := 0#32, priceLo := 709959680#32
        digest := knownDigest, sigCalc := 0xA45B0F9C#32 } := by
  obtain ⟨hiv, hencHi, hencLo, hsig, hdigest, hsigCalc⟩ := knownMessage_words
  obtain ⟨hpadHi, hpadLo⟩ := wordAt_pair 0x9EF77B0F#32 0x48228559#32
  obtain ⟨hpriceHi, hpriceLo⟩ := wordAt_pair 0#32 709959680#32
  rw [s.tokenChecked_eq, hmessage, knownMessage_pad hek, knownMessage_price hek, knownMessage_digest hek hik]
  simp only [State.setSigCalc, State.setDigest, State.setPrice, State.setPad, State.setFields, State.setSig,
    State.setEnc, State.setIv, hiv, hencHi, hencLo, hsig, hdigest, hsigCalc, hpadHi, hpadLo, hpriceHi, hpriceLo]

/-- Settles O39: the recomputed prefix is the one V1's token carries, so DECODE accepts it. -/
theorem knownVectorDecodes : Obligations.KnownVectorDecodes := by
  intro s hk hek hik hlen htoken
  obtain ⟨haccepted, hmessage⟩ := knownToken_decodes hlen htoken
  have hchecked := knownToken_checked hek hik hmessage
  have hdecode := exec_decodeToken_of_match hk haccepted (by rw [hchecked])
  rw [hchecked] at hdecode
  refine ⟨_, hdecode, ⟨rfl, rfl, rfl, rfl⟩, rfl, rfl, rfl, rfl, rfl, rfl, rfl, rfl, rfl, rfl, rfl, rfl, rfl,
    fun hovr => ?_⟩
  simp [State.statusWord, State.busy, State.complete, State.authenticated, hk, hovr, ResultCode.bits]

end Sys2Proof.Machine

namespace Sys2Proof.Machine

/-! ## How a command completes (R240, R242, R243 60_exceptions.md) -/

/-- The state on which a command completes that fails with another result than AUTH_FAIL: of all registers but RESULT
and ERR_INFO it writes only what R243's exceptions list. -/
def State.failed (i : Instr) (s : State) : State :=
  { s with
    keysValid := if i = .commitKeys then false else s.keysValid
    authOk := if i = .sigChk ∨ i = .decodeToken then false else s.authOk }

/-- The result of a command that fails with another result than AUTH_FAIL, and the condition of that failure (R240). -/
inductive FailsWith (i : Instr) (s : State) : ResultCode → Prop where
  | keyLength (hi : i = .commitKeys) (hlen : ¬ (s.ekeyLen = 32#32 ∧ s.ikeyLen = 32#32)) : FailsWith i s .keyLength
  | format (hi : i = .b64Dec ∨ i = .decodeToken) (htoken : ¬ tokenAccepted s) : FailsWith i s .format
  | range (hi : i = .timeEnc ∨ i = .encodeToken) (husec : 999999 < s.timeUsec.toNat) : FailsWith i s .range
  | noKeys (hi : needsKeys i = true) (hkeys : s.keysValid = false) : FailsWith i s .noKeys

/-- The states in which the command `i` can leave the block that runs it in `s`: success, a comparison that failed, or
another failure. -/
inductive Completion (i : Instr) (s : State) : State → Prop where
  | ok {u : State} (hovr : u.ovr = s.ovr) : Completion i s (u.complete .ok 0#32)
  | authFail {u : State} (hi : i = .sigChk ∨ i = .decodeToken) (hdiff : u.sigCalc ≠ u.sig) (hek : u.ek = s.ek)
      (hik : u.ik = s.ik) (hovr : u.ovr = s.ovr) : Completion i s (u.complete .authFail 0#32)
  | failed {code : ResultCode} (info : Word) (h : FailsWith i s code) :
      Completion i s ((s.failed i).complete code info)

/-- The key gate's failure is one that `State.failed` describes (R103 40_control.md). -/
theorem exec_of_noKeys {i : Instr} {s : State} (hi : needsKeys i = true) (hk : s.keysValid = false) :
    exec i s = raise .noKeys 0#32 (s.failed i) := by
  rw [keyedCommandsWithoutKeysRaiseNoKeys i s hi hk]
  rcases (needsKeys_iff i).mp hi with rfl | rfl | rfl | rfl | rfl <;> rfl

theorem not_tokenAccepted_of_formatFailure {s : State} {info : Word} (h : formatFailure s = some info) :
    ¬ tokenAccepted s := fun hacc => by
  simp [formatFailure_of_accepted hacc] at h

theorem State.tokenMade_ovr (s : State) : s.tokenMade.ovr = s.ovr := by
  simp [State.tokenMade, State.tokenEncoded, State.fieldsMade, State.timeStamped]

theorem State.tokenChecked_keys_ovr (s : State) :
    s.tokenChecked.ek = s.ek ∧ s.tokenChecked.ik = s.ik ∧ s.tokenChecked.ovr = s.ovr := by
  simp [State.tokenChecked, State.fieldsChecked, State.tokenDecoded, State.setFields]

/-- Every command completes, in one of the ways of `Completion`. -/
theorem exec_completion (i : Instr) (s : State) : ∃ t, exec i s = .next t ∧ Completion i s t := by
  by_cases hgate : needsKeys i = true ∧ s.keysValid = false
  · obtain ⟨hi, hk⟩ := hgate
    exact ⟨_, exec_of_noKeys hi hk, .failed _ (.noKeys hi hk)⟩
  have hk : needsKeys i = true → s.keysValid = true := by simpa using hgate
  cases i with
  | nop | zeroize | timeDec | xorMask | xorUnmask | b64Enc => exact ⟨_, rfl, .ok rfl⟩
  | commitKeys =>
    by_cases hlen : s.ekeyLen = 32#32 ∧ s.ikeyLen = 32#32
    · obtain ⟨he, hi⟩ := hlen
      exact ⟨_, execCommitKeys_of_lengths he hi, .ok rfl⟩
    · exact ⟨_, execCommitKeys_of_bad_length hlen, .failed _ (.keyLength rfl hlen)⟩
  | timeEnc =>
    rcases Nat.lt_or_ge 999999 s.timeUsec.toNat with hout | hin
    · exact ⟨_, execTimeEnc_of_outOfRange hout, .failed _ (.range (.inl rfl) hout)⟩
    · exact ⟨_, execTimeEnc_of_inRange hin, .ok rfl⟩
  | hmacPad => exact ⟨_, exec_hmacPad_of_keysValid (hk rfl), .ok rfl⟩
  | sigGen => exact ⟨_, exec_sigGen_of_keysValid (hk rfl), .ok rfl⟩
  | sigChk =>
    by_cases hm : s.sigComputed.sigCalc = s.sig
    · exact ⟨_, execSigChk_of_match (hk rfl) hm, .ok rfl⟩
    · exact ⟨_, execSigChk_of_mismatch (hk rfl) hm, .authFail (.inl rfl) hm rfl rfl rfl⟩
  | b64Dec =>
    rcases tokenAccepted_or_formatFailure s with hacc | ⟨info, hf⟩
    · exact ⟨_, exec_b64Dec_of_accepted hacc, .ok rfl⟩
    · exact ⟨_, exec_b64Dec_of_failure hf, .failed _ (.format (.inl rfl) (not_tokenAccepted_of_formatFailure hf))⟩
  | encodeToken =>
    rcases Nat.lt_or_ge 999999 s.timeUsec.toNat with hout | hin
    · exact ⟨_, exec_encodeToken_of_outOfRange (hk rfl) hout, .failed _ (.range (.inr rfl) hout)⟩
    · exact ⟨_, exec_encodeToken_of_inRange (hk rfl) hin, .ok s.tokenMade_ovr⟩
  | decodeToken =>
    rcases tokenAccepted_or_formatFailure s with hacc | ⟨info, hf⟩
    · obtain ⟨hek, hik, hovr⟩ := s.tokenChecked_keys_ovr
      by_cases hm : s.tokenChecked.sigCalc = s.tokenChecked.sig
      · exact ⟨_, exec_decodeToken_of_match (hk rfl) hacc hm, .ok hovr⟩
      · exact ⟨_, exec_decodeToken_of_mismatch (hk rfl) hacc hm, .authFail (.inr rfl) hm hek hik hovr⟩
    · exact ⟨_, exec_decodeToken_of_failure (hk rfl) hf,
        .failed _ (.format (.inr rfl) (not_tokenAccepted_of_formatFailure hf))⟩

/-- Each next state of a command is one of its completions. -/
theorem completion_of_exec {i : Instr} {s t : State} (h : exec i s = .next t) : Completion i s t := by
  obtain ⟨u, hu, hc⟩ := exec_completion i s
  cases hu.symm.trans h
  exact hc

theorem Completion.idle_done {i : Instr} {s t : State} (h : Completion i s t) : t.eng = .idle ∧ t.done = true := by
  cases h <;> exact ⟨rfl, rfl⟩

theorem Completion.ovr {i : Instr} {s t : State} (h : Completion i s t) : t.ovr = s.ovr := by
  cases h with
  | ok hovr | authFail _ _ _ _ hovr => exact hovr
  | failed => rfl

/-- No failure touches the key bytes (R244). -/
theorem Completion.keys_of_ne_ok {i : Instr} {s t : State} (h : Completion i s t)
    (hne : t.result ≠ ResultCode.ok.bits) : t.ek = s.ek ∧ t.ik = s.ik := by
  cases h with
  | ok => exact absurd rfl hne
  | authFail _ _ hek hik => exact ⟨hek, hik⟩
  | failed => exact ⟨rfl, rfl⟩

theorem FailsWith.bits_lt {i : Instr} {s : State} {code : ResultCode} (h : FailsWith i s code) :
    code.bits.toNat < 6 := by
  cases h <;> decide

/-- A command reports a code below that of ILLEGAL_CMD (R240). -/
theorem Completion.result_lt {i : Instr} {s t : State} (h : Completion i s t) : t.result.toNat < 6 := by
  cases h with
  | ok => exact (by decide : ResultCode.ok.bits.toNat < 6)
  | authFail => exact (by decide : ResultCode.authFail.bits.toNat < 6)
  | failed _ hf => exact hf.bits_lt

/-- Settles O7: every failure but AUTH_FAIL completes on `State.failed`. -/
theorem failureWritesOnlyStatus : Obligations.FailureWritesOnlyStatus := by
  intro i s t h hok hauth
  cases completion_of_exec h with
  | ok => exact absurd rfl hok
  | authFail => exact absurd rfl hauth
  | failed => rfl

/-! ## The engine's turn (R244, R255 60_exceptions.md) -/

/-- The engine answers an illegal word with ILLEGAL_CMD and the word, and writes nothing else (R255). -/
theorem runEngine_of_illegal {s : State} {w : Word} (hw : s.eng = .busy w) (h : legalWord w = false) :
    runEngine s = raise .illegalCmd w s := by
  cases hd : decodeWord w with
  | ok i => simp [(decodeAcceptsExactlyLegalWords w).mp ⟨i, hd⟩] at h
  | error e => simp [runEngine, hw, hd, illegalCommand]

/-- The engine runs the command of a legal word. -/
theorem runEngine_of_legal {s : State} {w : Word} (hw : s.eng = .busy w) (h : legalWord w = true) :
    ∃ i, runEngine s = exec i s := by
  obtain ⟨i, hd⟩ := (decodeAcceptsExactlyLegalWords w).mpr h
  exact ⟨i, runEngine_of_decode hw hd⟩

/-- An idle engine accepts any CMD word (R80 30_encoding.md, R255). -/
theorem memWrite_cmd_of_idle {s : State} (h : s.eng = .idle) (v : Word) :
    memWrite 0x008 4 v s = { s.accept v with resp := .writeDone } :=
  memWrite_register .cmd v s h

/-- Settles O6, by the completions of the commands and that of an illegal word. -/
theorem everyLatchedWordCompletes : Obligations.EveryLatchedWordCompletes := by
  intro s w hw
  cases hl : legalWord w with
  | false =>
    refine ⟨s.complete .illegalCmd w, runEngine_of_illegal hw hl, rfl, rfl, by simp [State.irq], fun _ => ⟨rfl, rfl⟩,
      fun v => ?_⟩
    rw [memWrite_cmd_of_idle rfl, State.accept_eng]
  | true =>
    obtain ⟨i, hrun⟩ := runEngine_of_legal hw hl
    obtain ⟨t, ht, hc⟩ := exec_completion i s
    obtain ⟨hidle, hdone⟩ := hc.idle_done
    refine ⟨t, hrun.trans ht, hidle, hdone, (exec_irq ht).2, hc.keys_of_ne_ok, fun v => ?_⟩
    rw [memWrite_cmd_of_idle hidle, State.accept_eng]

/-- Settles O9: acceptance does not look at the word, and the engine's turn answers an illegal one. -/
theorem illegalWordCompletesWithIllegalCmd : Obligations.IllegalWordCompletesWithIllegalCmd := by
  intro s v hv
  refine ⟨fun hidle => ?_, fun hbusy hturn => ?_⟩
  · rw [memWrite_cmd_of_idle hidle]
    exact ⟨rfl, rfl⟩
  · rw [step_eq_runEngine hbusy hturn, runEngine_of_illegal hbusy hv]
    rfl

/-! ## Result codes against their conditions (R240, R242 60_exceptions.md) -/

/-- Settles O12: each code stands in one case of `Completion` or `FailsWith`, with its condition. -/
theorem resultCodesComeFromTheirConditions : Obligations.ResultCodesComeFromTheirConditions := by
  refine ⟨fun i s t h => ?_, fun s t w hw h => ?_⟩
  · cases completion_of_exec h with
    | ok => simp [ResultCode.bits]
    | authFail hi hdiff => simp [ResultCode.bits, hi, hdiff]
    | failed _ hf =>
      cases hf with
      | keyLength hi hlen => simpa [ResultCode.bits, hi, ← not_and_or] using hlen
      | format hi htoken => simp [ResultCode.bits, hi, htoken]
      | range hi husec => simp [ResultCode.bits, hi, husec]
      | noKeys hi hkeys => simp [ResultCode.bits, hi, hkeys]
  · cases hl : legalWord w with
    | false =>
      rw [runEngine_of_illegal hw hl] at h
      cases h
      exact ⟨(by decide : ResultCode.illegalCmd.bits.toNat ≤ 6), iff_of_true rfl rfl⟩
    | true =>
      obtain ⟨i, hrun⟩ := runEngine_of_legal hw hl
      have hlt : t.result.toNat < 6 := (completion_of_exec (hrun.symm.trans h)).result_lt
      exact ⟨hlt.le, iff_of_false (fun h6 => by simp [h6] at hlt) (by decide)⟩

/-- B64_DEC, and DECODE on committed keys, report a failed decode check (R195 44_base64.md). -/
theorem exec_completedWith_format {i : Instr} {s : State} {info : Word}
    (hi : i = .b64Dec ∨ i = .decodeToken ∧ s.keysValid = true) (hf : formatFailure s = some info) :
    ∃ t, exec i s = .next t ∧ CompletedWith t .format info := by
  rcases hi with rfl | ⟨rfl, hk⟩
  · exact ⟨_, exec_b64Dec_of_failure hf, rfl, rfl, rfl, rfl⟩
  · exact ⟨_, exec_decodeToken_of_failure hk hf, rfl, rfl, rfl, rfl⟩

/-- On an accepted token B64_DEC succeeds, and DECODE on committed keys comes to its comparison. -/
theorem exec_completedWith_of_accepted {i : Instr} {s : State}
    (hi : i = .b64Dec ∨ i = .decodeToken ∧ s.keysValid = true) (hacc : tokenAccepted s) :
    ∃ t, exec i s = .next t ∧ (CompletedWith t .ok 0#32 ∨ i = .decodeToken ∧ CompletedWith t .authFail 0#32) := by
  rcases hi with rfl | ⟨rfl, hk⟩
  · exact ⟨_, exec_b64Dec_of_accepted hacc, .inl ⟨rfl, rfl, rfl, rfl⟩⟩
  · by_cases hm : s.tokenChecked.sigCalc = s.tokenChecked.sig
    · exact ⟨_, exec_decodeToken_of_match hk hacc hm, .inl ⟨rfl, rfl, rfl, rfl⟩⟩
    · exact ⟨_, exec_decodeToken_of_mismatch hk hacc hm, .inr ⟨rfl, rfl, rfl, rfl, rfl⟩⟩

/-- Settles O11, check by check in R242's order. -/
theorem firstFailureInOrderIsReported : Obligations.FirstFailureInOrderIsReported := by
  refine ⟨fun s v hv hl => ?_, fun i s hi hk => ?_, fun s hk husec => ?_, fun i s hi => ⟨fun hlen => ?_, ?_, ?_⟩⟩
  · exact ⟨_, runEngine_of_illegal hv hl, rfl, rfl, rfl, rfl⟩
  · exact ⟨_, exec_of_noKeys hi hk, rfl, rfl, rfl, rfl⟩
  · exact ⟨_, exec_encodeToken_of_outOfRange hk husec, rfl, rfl, rfl, rfl⟩
  · exact exec_completedWith_format hi (formatFailure_of_length hlen)
  · intro j hlen hbad
    have ⟨hj, _⟩ := hbad
    rw [← formatCharInfo_eq hj]
    exact exec_completedWith_format hi (formatFailure_of_firstBad hlen hbad)
  · exact exec_completedWith_of_accepted hi

/-! ## OVR (R247 60_exceptions.md, R25 10_state.md) -/

/-- Of the register writes only one to STATUS touches OVR, and it can only clear it. -/
theorem writeReg_ovr (r : Reg) (v : Word) (s : State) :
    (writeReg r v s).ovr = s.ovr ∨ r = .status ∧ v.getLsbD 4 = true ∧ (writeReg r v s).ovr = false := by
  cases r with
  | status =>
    rw [writeReg, writeStatus_eq]
    cases v.getLsbD 4 with
    | false => exact .inl (Bool.and_true _)
    | true => exact .inr ⟨rfl, rfl, Bool.and_false _⟩
  | _ => exact .inl rfl

/-- What a write transaction can do to OVR: nothing, set it by being dropped, or clear it at STATUS. -/
theorem memWrite_ovr_cases (off width : Nat) (v : Word) (s : State) :
    (memWrite off width v s).ovr = s.ovr ∨
    (s.busy = true ∧ width = 4 ∧ off % 4 = 0 ∧ off ≤ 0x0FC ∧ off ≠ 0x004 ∧ off ≠ 0x00C ∧
      memWrite off width v s = { s.dropWrite with resp := .writeDone }) ∨
    (width = 4 ∧ off = 0x00C ∧ v.getLsbD 4 = true ∧ (memWrite off width v s).ovr = false) := by
  rcases memWrite_cases off width v s with ⟨_, h⟩ | ⟨hwidth, halign, hwin, h⟩
  · exact .inl (by rw [h])
  rw [h]
  rcases writeEffect_cases off v s with ⟨hbusy, hctrl, hstatus, he⟩ | ⟨_, _, he⟩ | ⟨r, hr, _, he⟩
  · refine .inr (.inl ⟨hbusy, hwidth, halign, hwin, ?_, ?_, by rw [he]⟩)
    · rintro rfl
      exact hctrl (regAt_offset .ctrl)
    · rintro rfl
      exact hstatus (regAt_offset .status)
  · exact .inl (by rw [he])
  · rw [he]
    rcases writeReg_ovr r v s with hkept | ⟨rfl, hv, hclear⟩
    · exact .inl hkept
    · exact .inr (.inr ⟨hwidth, offset_of_regAt off .status halign hwin hr, hv, hclear⟩)

/-- What a step can do to OVR: nothing, set it by a dropped write, clear it by a write to STATUS with bit 4 set, or
reset it. -/
theorem step_ovr_cases {s t : State} (h : step s = .next t) :
    t.ovr = s.ovr ∨
    (s.busy = true ∧ t.ovr = true ∧ t.result = s.result ∧ t.eng = s.eng ∧
      ∃ off v rest, s.pending = .bus (.write (Config.baseAddr + off) 4 v) :: rest ∧
        off % 4 = 0 ∧ off ≤ 0x0FC ∧ off ≠ 0x004 ∧ off ≠ 0x00C) ∨
    (t.ovr = false ∧ ∃ rest,
      (∃ v : Word, v.getLsbD 4 = true ∧ s.pending = .bus (.write (Config.baseAddr + 0x00C) 4 v) :: rest) ∨
      ∃ lost, s.pending = .reset lost :: rest) := by
  rcases step_cases s t h with
    ⟨_, w, _, ⟨i, _, hx⟩ | ⟨_, rfl⟩⟩ | ⟨_, ⟨_, rfl⟩ | ⟨inp, rest, s', hp, rfl, hin⟩⟩
  · exact .inl (completion_of_exec hx).ovr
  · exact .inl rfl
  · exact .inl rfl
  rcases hin with ⟨off, width, _, _, rfl⟩ | ⟨off, width, v, _, rfl, rfl⟩ | ⟨_, rfl⟩ | ⟨lost, rfl, rfl⟩
  · obtain ⟨a, n, hr⟩ := memRead_frame off width { s with pending := rest, lag := s.lag - 1 }
    exact .inl (by rw [hr])
  · rcases memWrite_ovr_cases off width v { s with pending := rest, lag := s.lag - 1 } with
      hkept | ⟨hbusy, rfl, halign, hwin, hctrl, hstatus, hdrop⟩ | ⟨rfl, rfl, hv, hclear⟩
    · exact .inl hkept
    · rw [hdrop]
      exact .inr (.inl ⟨hbusy, rfl, rfl, rfl, off, v, rest, hp, halign, hwin, hctrl, hstatus⟩)
    · exact .inr (.inr ⟨hclear, rest, .inl ⟨v, hv, hp⟩⟩)
  · obtain ⟨a, n, p, hw⟩ := waitStatus_frame { s with pending := rest, lag := s.lag - 1 }
    exact .inl (by rw [hw])
  · exact .inr (.inr ⟨rfl, rest, .inr ⟨lost, hp⟩⟩)

/-- Settles O58, by what a step can do to OVR. -/
theorem overrunIsSticky : Obligations.OverrunIsSticky := by
  intro s t h
  rcases step_ovr_cases h with hkept | ⟨hbusy, hset, hres, heng, hwrite⟩ | ⟨hclear, hcause⟩
  · exact ⟨fun hold hset => by simp [hkept, hold] at hset, fun hold hclear => by simp [hkept, hold] at hclear⟩
  · exact ⟨fun _ _ => ⟨hbusy, hres, heng, hwrite⟩, by simp [hset]⟩
  · exact ⟨by simp [hclear], fun _ _ => hcause⟩

end Sys2Proof.Machine

namespace Sys2Proof.Machine

/-! ## Reset (R270, R271 70_reset_and_hazards.md) -/

/-- Only ID, the register at offset 0, shows anything but 0 after reset. -/
theorem readReg_reset (r : Reg) :
    readReg r State.reset = if r.offset = 0x000 then 0x52544231#32 else 0#32 := by
  cases r with
  | ekey k | ikey k => simp [readReg, Reg.offset]
  | iv k | digest k | token k => simp [readReg, Reg.offset, State.reset]
  | _ => rfl

/-- Settles O52: an offset holds a register, which is idle and shows its reset value, or it is reserved. -/
theorem resetValues : Obligations.ResetValues := by
  refine ⟨fun off ha hw => ?_, by simp [State.reset], rfl, rfl⟩
  cases hr : regAt off with
  | none =>
    have hne : off ≠ 0x000 := by
      rintro rfl
      cases (regAt_offset .id).symm.trans hr
    rw [memRead_reserved ha hw hr, if_neg hne]
  | some r =>
    rw [offset_of_regAt off r ha hw hr, memRead_resp_of_idle rfl, readReg_reset]

/-- Settles O53: whatever is running, the input is taken as a reset. -/
theorem resetAbandonsRunningCommand : Obligations.ResetAbandonsRunningCommand :=
  fun _ _ _ he hp => step_eq_takeInput_of_hostTurn he hp

/-! ## Reads while a command runs (R274 70_reset_and_hazards.md) -/

/-- A register in no command's write set is never read free. -/
theorem readIsFree_of_never_written {r : Reg} (h : ∀ i, inWriteSet i r = false) (s : State) :
    readIsFree r s = false := by
  unfold readIsFree wordWriteSet
  split
  · rfl
  · split <;> simp [h]

theorem memRead_status (s : State) :
    memRead Reg.status.offset 4 s = { s with resp := .readData s.statusWord } :=
  memRead_of_not_free (readIsFree_of_never_written (fun i => by cases i <;> rfl) s)

theorem memRead_errInfo (s : State) :
    memRead Reg.errInfo.offset 4 s = { s with resp := .readData s.errInfo } :=
  memRead_of_not_free (readIsFree_of_never_written (fun i => by cases i <;> rfl) s)

theorem wordWriteSet_of_decode {w : Word} {i : Instr} (h : decodeWord w = .ok i) (r : Reg) :
    wordWriteSet w r = inWriteSet i r := by
  simp [wordWriteSet, h]

/-- An illegal word has the empty write set. -/
theorem wordWriteSet_of_illegal {w : Word} (h : legalWord w = false) (r : Reg) : wordWriteSet w r = false := by
  cases hd : decodeWord w with
  | ok i => simp [(decodeAcceptsExactlyLegalWords w).mp ⟨i, hd⟩] at h
  | error e => simp [wordWriteSet, hd]

theorem readIsFree_of_busy {s : State} {w : Word} (h : s.eng = .busy w) (r : Reg) :
    readIsFree r s = (wordWriteSet w r && !r.isKey) := by
  simp [readIsFree, h]

theorem readReg_of_isKey {r : Reg} (h : r.isKey = true) (s : State) : readReg r s = 0#32 := by
  cases r with
  | ekey _ | ikey _ => rfl
  | _ => exact absurd h Bool.false_ne_true

/-- Settles O49: a read is free exactly when the running word's write set holds the register and it is no key. -/
theorem busyReadsOfWriteSetAreFree : Obligations.BusyReadsOfWriteSetAreFree := by
  intro s w r hw
  have hbusy : s.busy = true := s.busy_iff.mpr ⟨w, hw⟩
  obtain ⟨hbit0, hbit1, -⟩ := statusWord_flags s
  refine ⟨fun i hd => wordWriteSet_of_decode hd r, fun hl => wordWriteSet_of_illegal hl r, fun hset hkey => ?_,
    fun hnot => memRead_of_not_free ?_, fun hkey => readReg_of_isKey hkey s, memRead_status s, hbit0.trans hbusy,
    fun hs => hbit1.trans (hs.busy_not_done hbusy), memRead_errInfo s⟩
  · rw [memRead_register, readIsFree_of_busy hw, hset, hkey]
    rfl
  · rw [readIsFree_of_busy hw]
    rcases hnot with hset | hkey
    · simp [hset]
    · simp [hkey]

/-! ## Writes while a command runs (R273 70_reset_and_hazards.md) -/

/-- A write that reaches a busy block is dropped, or is carried out at CTRL or STATUS. -/
theorem writeEffect_of_busy {s : State} (hb : s.busy = true) (off : Nat) (v : Word) :
    (regAt off ≠ some .ctrl ∧ regAt off ≠ some .status ∧ writeEffect off v s = s.dropWrite) ∨
    (regAt off = some .ctrl ∧ writeEffect off v s = { s with irqEn := v.getLsbD 0 }) ∨
    (regAt off = some .status ∧ writeEffect off v s = s.writeStatus v) := by
  rcases writeEffect_cases off v s with ⟨_, hctrl, hstatus, h⟩ | ⟨hidle, _⟩ | ⟨r, hr, hidle | rfl | rfl, h⟩
  · exact .inl ⟨hctrl, hstatus, h⟩
  · simp [hb] at hidle
  · simp [hb] at hidle
  · exact .inr (.inl ⟨hr, h⟩)
  · exact .inr (.inr ⟨hr, h⟩)

/-- Settles O50: no other offset than theirs holds CTRL or STATUS. -/
theorem busyWritesAreDropped : Obligations.BusyWritesAreDropped := by
  intro s w off v hw
  have hbusy : s.busy = true := s.busy_iff.mpr ⟨w, hw⟩
  obtain ⟨-, hctrl, -⟩ := ctrlGatesTheInterrupt
  obtain ⟨-, hstatus⟩ := statusFieldsAndClears
  refine ⟨fun ha hwin hnc hns => ?_, (hctrl s v).1, hstatus s v, fun width hbad => ?_⟩
  · rw [memWrite, admitted_word off ha hwin, if_pos rfl, admittedWrite]
    rcases writeEffect_of_busy hbusy off v with ⟨_, _, h⟩ | ⟨hr, _⟩ | ⟨hr, _⟩
    · rw [h]
      rfl
    · exact absurd (offset_of_regAt off .ctrl ha hwin hr) hnc
    · exact absurd (offset_of_regAt off .status ha hwin hr) hns
  · rw [memWrite_busError hbad]

/-- A write that reaches a busy block changes IRQ_EN, DONE and OVR at most. -/
theorem writeEffect_frame_of_busy {s : State} (hb : s.busy = true) (off : Nat) (v : Word) :
    ∃ i d o, writeEffect off v s = { s with irqEn := i, done := d, ovr := o } := by
  rcases writeEffect_of_busy hb off v with ⟨_, _, h⟩ | ⟨_, h⟩ | ⟨_, h⟩
  · exact ⟨_, _, _, h⟩
  · exact ⟨_, _, _, h⟩
  · exact ⟨_, _, _, h.trans (writeStatus_eq v s)⟩

/-- Settles O57: of the running block the outside world touches IRQ_EN, DONE, OVR and the model's own fields only. -/
theorem runningCommandOperandsAreStable : Obligations.RunningCommandOperandsAreStable := by
  intro s t hb he hr h
  rcases hostStep_cases h he with ⟨lost, rest, hp, _⟩ | ⟨l, n, p, a, rfl⟩ | ⟨off, v, l, p, rfl⟩
  · exact absurd hp (hr lost rest)
  · rfl
  · obtain ⟨i, d, o, hw⟩ := writeEffect_frame_of_busy (s := { s with lag := l, pending := p }) hb off v
    rw [hw]

/-! ## The write sets as updates of the state (R274 70_reset_and_hazards.md) -/

/-- The registers of the write set of `i`, STATUS and ERR_INFO taken from `t` and the others from `s`, with the key
bytes, KEYS_VALID and AUTH_OK taken from `t` for the commands that write them. -/
def State.overwrite (i : Instr) (s t : State) : State :=
  { s with
    eng := t.eng
    done := t.done
    result := t.result
    errInfo := t.errInfo
    keysValid := if i = .zeroize ∨ i = .commitKeys then t.keysValid else s.keysValid
    authOk := if i = .zeroize ∨ i = .sigChk ∨ i = .decodeToken then t.authOk else s.authOk
    ek := if i = .zeroize then t.ek else s.ek
    ik := if i = .zeroize then t.ik else s.ik
    ekeyLen := if inWriteSet i .ekeyLen then t.ekeyLen else s.ekeyLen
    ikeyLen := if inWriteSet i .ikeyLen then t.ikeyLen else s.ikeyLen
    tsSec := if inWriteSet i .tsSec then t.tsSec else s.tsSec
    tsUsec := if inWriteSet i .tsUsec then t.tsUsec else s.tsUsec
    priceHi := if inWriteSet i .priceHi then t.priceHi else s.priceHi
    priceLo := if inWriteSet i .priceLo then t.priceLo else s.priceLo
    encPriceHi := if inWriteSet i .encPriceHi then t.encPriceHi else s.encPriceHi
    encPriceLo := if inWriteSet i .encPriceLo then t.encPriceLo else s.encPriceLo
    iv := if inWriteSet i (.iv 0) then t.iv else s.iv
    sig := if inWriteSet i .sig then t.sig else s.sig
    sigCalc := if inWriteSet i .sigCalc then t.sigCalc else s.sigCalc
    padHi := if inWriteSet i .padHi then t.padHi else s.padHi
    padLo := if inWriteSet i .padLo then t.padLo else s.padLo
    digest := if inWriteSet i (.digest 0) then t.digest else s.digest
    tokenLen := if inWriteSet i .tokenLen then t.tokenLen else s.tokenLen
    token := if inWriteSet i (.token 0) then t.token else s.token }

/-- The words of a register file are in a write set together. -/
theorem inWriteSet_file (i : Instr) :
    (∀ k, inWriteSet i (.iv k) = inWriteSet i (.iv 0)) ∧
    (∀ k, inWriteSet i (.digest k) = inWriteSet i (.digest 0)) ∧
    ∀ k, inWriteSet i (.token k) = inWriteSet i (.token 0) := by
  cases i <;> exact ⟨fun _ => rfl, fun _ => rfl, fun _ => rfl⟩

/-- Outside the write set an overwritten state reads as before. -/
theorem readReg_overwrite {i : Instr} {r : Reg} (h : inWriteSet i r = false) (hstatus : r ≠ .status)
    (herr : r ≠ .errInfo) (s t : State) : readReg r (s.overwrite i t) = readReg r s := by
  obtain ⟨hiv, hdigest, htoken⟩ := inWriteSet_file i
  cases r with
  | status => exact absurd rfl hstatus
  | errInfo => exact absurd rfl herr
  | iv k => simp [readReg, State.overwrite, ← hiv k, h]
  | digest k => simp [readReg, State.overwrite, ← hdigest k, h]
  | token k => simp [readReg, State.overwrite, ← htoken k, h]
  | id | ctrl | cmd | ekey _ | ikey _ | timeSec | timeUsec => rfl
  | _ => simp [readReg, State.overwrite, h]

/-- A failure other than AUTH_FAIL writes none of the write set. -/
theorem failed_complete_eq_overwrite (i : Instr) (s : State) (code : ResultCode) (info : Word) :
    (s.failed i).complete code info = s.overwrite i ((s.failed i).complete code info) := by
  cases i <;> rfl

/-- A command that fails with another result than AUTH_FAIL overwrites nothing outside its write set. -/
theorem exec_overwrites_of_raise {i : Instr} {s : State} {code : ResultCode} {info : Word}
    (h : exec i s = raise code info (s.failed i)) : ∃ t, exec i s = .next t ∧ t = s.overwrite i t :=
  ⟨_, h, failed_complete_eq_overwrite i s code info⟩

/-- Every command completes, and overwrites its write set only. -/
theorem exec_overwrites (i : Instr) (s : State) : ∃ t, exec i s = .next t ∧ t = s.overwrite i t := by
  by_cases hgate : needsKeys i = true ∧ s.keysValid = false
  · obtain ⟨hi, hk⟩ := hgate
    exact exec_overwrites_of_raise (exec_of_noKeys hi hk)
  have hk : needsKeys i = true → s.keysValid = true := by simpa using hgate
  cases i with
  | nop | zeroize | timeDec | xorMask | xorUnmask | b64Enc => exact ⟨_, rfl, rfl⟩
  | commitKeys =>
    by_cases hlen : s.ekeyLen = 32#32 ∧ s.ikeyLen = 32#32
    · obtain ⟨he, hi⟩ := hlen
      exact ⟨_, execCommitKeys_of_lengths he hi, rfl⟩
    · exact exec_overwrites_of_raise (execCommitKeys_of_bad_length hlen)
  | timeEnc =>
    rcases Nat.lt_or_ge 999999 s.timeUsec.toNat with hout | hin
    · exact exec_overwrites_of_raise (execTimeEnc_of_outOfRange hout)
    · exact ⟨_, execTimeEnc_of_inRange hin, rfl⟩
  | hmacPad => exact ⟨_, exec_hmacPad_of_keysValid (hk rfl), rfl⟩
  | sigGen => exact ⟨_, exec_sigGen_of_keysValid (hk rfl), rfl⟩
  | sigChk =>
    by_cases hm : s.sigComputed.sigCalc = s.sig
    · exact ⟨_, execSigChk_of_match (hk rfl) hm, rfl⟩
    · exact ⟨_, execSigChk_of_mismatch (hk rfl) hm, rfl⟩
  | b64Dec =>
    rcases tokenAccepted_or_formatFailure s with hacc | ⟨info, hf⟩
    · exact ⟨_, exec_b64Dec_of_accepted hacc, rfl⟩
    · exact exec_overwrites_of_raise (exec_b64Dec_of_failure hf)
  | encodeToken =>
    rcases Nat.lt_or_ge 999999 s.timeUsec.toNat with hout | hin
    · exact exec_overwrites_of_raise (exec_encodeToken_of_outOfRange (hk rfl) hout)
    · exact ⟨_, exec_encodeToken_of_inRange (hk rfl) hin, State.tokenMade_complete_frame rfl⟩
  | decodeToken =>
    rcases tokenAccepted_or_formatFailure s with hacc | ⟨info, hf⟩
    · by_cases hm : s.tokenChecked.sigCalc = s.tokenChecked.sig
      · exact ⟨_, exec_decodeToken_of_match (hk rfl) hacc hm, State.verdict_frame (.inl rfl)⟩
      · exact ⟨_, exec_decodeToken_of_mismatch (hk rfl) hacc hm, State.verdict_frame (.inr rfl)⟩
    · exact exec_overwrites_of_raise (exec_decodeToken_of_failure (hk rfl) hf)

/-- Settles O8: a command overwrites its write set only. -/
theorem commandsKeepRegistersOutsideWriteSet : Obligations.CommandsKeepRegistersOutsideWriteSet := by
  intro i s t h
  obtain ⟨u, hu, hover⟩ := exec_overwrites i s
  cases hu.symm.trans h
  rw [hover]
  refine ⟨fun r hr hstatus herr => readReg_overwrite hr hstatus herr s t, rfl, rfl, rfl, rfl, rfl, fun hz => ?_,
    fun hz hc => ?_, fun hz hs hd => ?_⟩
  · simp [State.overwrite, hz]
  · simp [State.overwrite, hz, hc]
  · simp [State.overwrite, hz, hs, hd]

/-! ## Every accepted command completes (R276 70_reset_and_hazards.md, R73 20_memory.md) -/

theorem runSteps_succ {s t : State} (h : step s = .next t) (n : Nat) : runSteps (n + 1) s = runSteps n t := by
  rw [runSteps, h]

/-- The engine's turn leaves what the outside world does next alone. -/
theorem runEngine_pending {s t : State} (h : runEngine s = .next t) : t.pending = s.pending := by
  unfold runEngine at h
  split at h
  · cases h
    rfl
  · split at h
    next i _ =>
      obtain ⟨-, -, -, hpending, -⟩ := commandsKeepRegistersOutsideWriteSet i s t h
      exact hpending
    next =>
      cases h
      rfl

/-- On a busy engine whose turn has come a step is the completion. -/
theorem step_completes {s : State} (hb : s.busy = true) (ht : s.lag = 0 ∨ s.pending = []) :
    ∃ t, step s = .next t ∧ t.busy = false ∧ t.done = true ∧ t.pending = s.pending := by
  obtain ⟨w, hw⟩ := s.busy_iff.mp hb
  obtain ⟨t, hrun, hidle, hdone, -⟩ := everyLatchedWordCompletes s w hw
  exact ⟨t, (step_eq_runEngine hw ht).trans hrun, t.not_busy_iff.mpr hidle, hdone, runEngine_pending hrun⟩

/-- WAIT reads STATUS and stays while the block is busy (R86 30_encoding.md). -/
theorem waitStatus_eq (s : State) :
    waitStatus s = { s with
      resp := .readData s.statusWord, pending := if s.busy then .wait :: s.pending else s.pending } := by
  rw [waitStatus, memRead_status]
  cases s.busy <;> rfl

/-- WAIT reads STATUS once for each transaction that the command outlasts, and once more after the completion. -/
theorem runSteps_wait {s : State} {rest : List Input} (hb : s.busy = true) (hp : s.pending = .wait :: rest) :
    ∃ t, runSteps (s.lag + 2) s = .next t ∧ t.busy = false ∧ t.done = true ∧ t.pending = rest := by
  induction hl : s.lag generalizing s with
  | zero =>
    obtain ⟨u, hstep, hidle, hdone, hpu⟩ := step_completes hb (.inl hl)
    have hread := step_eq_takeInput_of_hostTurn (engineTurn_of_idle (u.not_busy_iff.mp hidle)) (hpu.trans hp)
    refine ⟨_, (runSteps_succ hstep 1).trans (runSteps_succ hread 0), ?_⟩
    rw [waitStatus_eq, show State.busy { u with pending := rest, lag := u.lag - 1 } = false from hidle]
    exact ⟨hidle, hdone, rfl⟩
  | succ k ih =>
    have hread := step_eq_takeInput hp (hl ▸ k.succ_ne_zero)
    rw [runSteps_succ hread, waitStatus_eq, show State.busy { s with pending := rest, lag := s.lag - 1 } = true from hb]
    exact ih hb rfl (by simp [hl])

/-- An input is no transaction outside the window. -/
def InWindow (inp : Input) : Prop :=
  ∀ b, inp = .bus b → ∃ off, off ≤ 0x0FF ∧
    ((∃ n, b = .read (Config.baseAddr + off) n) ∨ ∃ n v, b = .write (Config.baseAddr + off) n v)

/-- An input in the window resets the running block, or leaves it running: the lag is the step's own affair, and only a
WAIT goes back to the inputs to come. -/
theorem takeInput_of_busy {inp : Input} {s : State} (hb : s.busy = true) (hin : InWindow inp) :
    ∃ t, takeInput inp s = .next t ∧
      (t.busy = false ∨ t.busy = true ∧ t.lag = s.lag ∧ t.pending ⊆ inp :: s.pending) := by
  cases inp with
  | bus b =>
    obtain ⟨off, hoff, ⟨width, rfl⟩ | ⟨width, v, rfl⟩⟩ := hin b rfl
    · obtain ⟨a, n, hr⟩ := memRead_frame off width s
      exact ⟨{ s with resp := a, draws := n }, by simp [takeInput, busTransaction, hoff, hr], .inr ⟨hb, rfl, by simp⟩⟩
    · refine ⟨_, takeInput_write hoff width v s, .inr ?_⟩
      rcases memWrite_cases off width v s with ⟨_, hw⟩ | ⟨_, _, _, hw⟩
      · rw [hw]
        exact ⟨hb, rfl, by simp⟩
      · obtain ⟨i, d, o, he⟩ := writeEffect_frame_of_busy hb off v
        rw [hw, he]
        exact ⟨hb, rfl, by simp⟩
  | wait =>
    refine ⟨_, rfl, .inr ?_⟩
    rw [waitStatus_eq, hb]
    exact ⟨hb, rfl, by simp⟩
  | reset lost => exact ⟨_, rfl, .inl rfl⟩

/-- Each step is the completion, a reset, or uses up one of the running command's lag. -/
theorem not_busy_within_lag {s : State} (hb : s.busy = true) (hin : ∀ inp ∈ s.pending, InWindow inp) :
    ∃ n t, n ≤ s.lag + 1 ∧ runSteps n s = .next t ∧ t.busy = false := by
  induction hl : s.lag generalizing s with
  | zero =>
    obtain ⟨t, hstep, hidle, -⟩ := step_completes hb (.inl hl)
    exact ⟨1, t, by omega, runSteps_succ hstep 0, hidle⟩
  | succ k ih =>
    cases hp : s.pending with
    | nil =>
      obtain ⟨t, hstep, hidle, -⟩ := step_completes hb (.inr hp)
      exact ⟨1, t, by omega, runSteps_succ hstep 0, hidle⟩
    | cons inp rest =>
      rw [hp] at hin
      have hstep := step_eq_takeInput hp (hl ▸ k.succ_ne_zero)
      obtain ⟨t, ht, hidle | ⟨hbusy, hlag, hsub⟩⟩ :=
        takeInput_of_busy (s := { s with pending := rest, lag := s.lag - 1 }) hb (hin inp List.mem_cons_self)
      · exact ⟨1, t, by omega, runSteps_succ (hstep.trans ht) 0, hidle⟩
      · obtain ⟨n, u, hn, hrun, hidle⟩ := ih hbusy (fun x hx => hin x (hsub hx)) (hlag.trans (by simp [hl]))
        exact ⟨n + 1, u, by omega, (runSteps_succ (hstep.trans ht) n).trans hrun, hidle⟩

/-- Settles O60, both parts by induction on the lag. -/
theorem everyAcceptedCommandCompletes : Obligations.EveryAcceptedCommandCompletes :=
  ⟨fun _ _ hb hp => runSteps_wait hb hp, fun _ hb hin => not_busy_within_lag hb hin⟩

end Sys2Proof.Machine
